-- ==== Sys2Proof/Word.lean ====
section
/-! DEFINITION. The widths of the engine's data: bytes of SRC, 16-bit index values, 32-bit registers
and buffer words (10_state.md R22, R43; 30_encoding.md R98). -/

namespace Sys2Proof

/-- One byte of the source buffer (R43). -/
abbrev Byte := BitVec 8

/-- One element of an index stream, format `IDX16` (R98). -/
abbrev Half := BitVec 16

/-- A register of the REG space, a PIX word or one word of a TRI entry (R22, R45, R46). -/
abbrev Word := BitVec 32

end Sys2Proof
end

