-- ==== Sys2Proof/Config.lean ====
section
/-! DEFINITION. What is fixed for one engine and is no state (00_scope.md R7; 93_implementation_defined.md
section 2), and the free values of what the spec leaves unspecified. The values chosen for the decided
parameters stand in Decode.lean (`infoLayout`, `sentinel`) and in Machine/Operands.lean (`config`). -/

namespace Sys2Proof

/-- `BLOCK_WORD_ORDER` (R84, P3): which of the two words of the 8 colour bytes is at byte 0. -/
inductive BlockWordOrder where
  | pixFirst
  | infoFirst
  deriving DecidableEq, Repr

/-- `ALPHA_POS` (R90, P4): where the 8 alpha bytes of a 16-byte block are. -/
inductive AlphaPos where
  | alphaFirst
  | alphaLast
  deriving DecidableEq, Repr

/-- `STRIP_WINDING` (R186, P6): whether `reverse` is toggled before or after it is tested. -/
inductive StripWinding where
  | toggleThenEmit
  | emitThenToggle
  deriving DecidableEq, Repr

/-- `INFO_LAYOUT` (R85 to R87, P5): the lowest bit of every field of the block-info word whose place the
source does not give. `FLIP` is bit 0 and `DIFF` is bit 1 by the source. -/
structure InfoLayout where
  sel1 : Nat
  sel2 : Nat
  indR1 : Nat
  indR2 : Nat
  indG1 : Nat
  indG2 : Nat
  indB1 : Nat
  indB2 : Nat
  diffR : Nat
  diffDR : Nat
  diffG : Nat
  diffDG : Nat
  diffB : Nat
  diffDB : Nat
  deriving DecidableEq, Repr

/-- The parameters the commands take (R7): the two open pixel-type codes and the three decided choices. -/
structure Config where
  ptOpaque : Byte
  ptAlpha : Byte
  blockWordOrder : BlockWordOrder
  alphaPos : AlphaPos
  stripWinding : StripWinding
  deriving DecidableEq, Repr

/-- `PT_OPAQUE` is OPEN (R7, R8, D9): a free constant. Log 8. -/
opaque Config.freePtOpaque : Byte

/-- The free constant that `PT_ALPHA` is made from (R7, D9): `PT_ALPHA` is this value wherever it differs
from `PT_OPAQUE`. Log 8. -/
opaque Config.freePtAlpha : Byte

/-- What the draw numbered `d` gives for SRC byte `a` where nothing has written the byte (R44, R51, U2). Log 5. -/
opaque Config.freeSrc : (d : Nat) → (a : Nat) → Byte

/-- What the draw numbered `d` gives for PIX entry `p` where it is unspecified (R47, U1, U2). Log 6. -/
opaque Config.freePix : (d : Nat) → (p : Nat) → Word

/-- What the draw numbered `d` gives for word `k` of TRI (word `k` is lane `k mod 3` of entry `k div 3`)
where it is unspecified (R47, U2). Log 6. -/
opaque Config.freeTri : (d : Nat) → (k : Nat) → Word

end Sys2Proof
end

