-- ==== Sys2Proof/Syntax.lean ====
section
/-! DEFINITION. The instructions: one constructor per row of spec/opcode_table.json. Five are commands, values
written to `REG.CMD` (30_encoding.md R80, R81); three are data formats that a unit of the engine parses inside
a command (R86, R87, R98; log 3). The value of an operand is a natural number, because the rules compute with
integers (00_scope.md R11); WellFormed.lean says which values the fields admit. -/

namespace Sys2Proof

/-- The fields of a block-info word in individual mode, format `INFO.IND` (R86). -/
structure IndInfo where
  r1 : Nat
  r2 : Nat
  g1 : Nat
  g2 : Nat
  b1 : Nat
  b2 : Nat
  sel1 : Nat
  sel2 : Nat
  flip : Bool
  deriving DecidableEq, Repr

/-- The fields of a block-info word in differential mode, format `INFO.DIFF` (R87). The deltas are the raw
3-bit values; R89 (c) says how they are signed. -/
structure DiffInfo where
  r : Nat
  dr : Nat
  g : Nat
  dg : Nat
  b : Nat
  db : Nat
  sel1 : Nat
  sel2 : Nat
  flip : Bool
  deriving DecidableEq, Repr

inductive Instr where
  /-- `NOP` (R210). -/
  | nop
  /-- `DECBLK` (R135). -/
  | decblk
  /-- `DECTEX` (R150). -/
  | dectex
  /-- `DECSTRIP` (R180). -/
  | decstrip
  /-- `CLR` (R211). -/
  | clr
  /-- `INFO.IND`: a block-info word in individual mode (R86, R122). -/
  | infoInd (f : IndInfo)
  /-- `INFO.DIFF`: a block-info word in differential mode (R87, R123). -/
  | infoDiff (f : DiffInfo)
  /-- `IDX.RESTART`: the sentinel read in the `f3` position (R98, R184). -/
  | idxRestart
  deriving DecidableEq, Repr

end Sys2Proof
end

