-- ==== Sys2Proof/Machine/State.lean ====
section
/-! DEFINITION. The state of one engine as plain data (10_state.md R20), the host's transactions as data, the
reasons a step can stop, and the state after reset (R51). INVENTORY.md lists every field with its rule. -/

namespace Sys2Proof.Machine

/-- A memory of the engine: the entries that hold a definite value, as (key, value) pairs, keys strictly
rising. An unlisted entry is unspecified (R44 to R47): it has no value of its own to leave out. -/
abbrev Memory (α : Type) := List (Nat × α)

/-- Canonical form over a space of `size` entries: keys strictly rising and inside the space. -/
abbrev Memory.wf {α : Type} (size : Nat) (m : Memory α) : Prop :=
  (m.map Prod.fst).Pairwise (· < ·) ∧ ∀ k ∈ m.map Prod.fst, k < size

/-- A TRI entry, format `TRI3` (30_encoding.md R97). -/
structure Tri3 where
  a : Word
  b : Word
  c : Word
  deriving DecidableEq, Repr

/-- The three words of a TRI entry (R46, R97). -/
inductive TriLane where
  | a
  | b
  | c
  deriving DecidableEq, Repr

/-- The width of a host access to the REG space; only `w32` is part of the interface (R23). -/
inductive BusWidth where
  | w8
  | w16
  | w32
  | w64
  deriving DecidableEq, Repr

/-- What the host and the platform can do to the engine, one transaction at a time (R43, R73, R100, R250). -/
inductive Transaction where
  /-- `wr NAME, v`: a write to a REG offset; a write to `CMD` starts a command (R24). -/
  | regWrite (width : BusWidth) (off : Word) (v : Word)
  /-- `rd NAME`: a read of a REG offset. -/
  | regRead (width : BusWidth) (off : Word)
  /-- `src off: b0 b1 ...`: bytes written from an SRC offset upwards. -/
  | srcWrite (off : Word) (bytes : List Byte)
  /-- `n` bytes read from an SRC offset upwards (R43: the host reads and writes SRC). -/
  | srcRead (off : Word) (n : Nat)
  /-- A PIX entry written by the host (R43). -/
  | pixWrite (p : BitVec 26) (v : Word)
  /-- `pix p`: a PIX entry read by the host. -/
  | pixRead (p : BitVec 26)
  /-- A TRI entry written by the host (R43). -/
  | triWrite (t : Word) (e : Tri3)
  /-- `tri t`: a TRI entry read by the host. -/
  | triRead (t : Word)
  /-- One word of a TRI entry written by the host (R63). -/
  | triWriteWord (t : Word) (l : TriLane) (v : Word)
  /-- One word of a TRI entry read by the host (R63). -/
  | triReadWord (t : Word) (l : TriLane)
  /-- The platform's reset, between two commands (R250, R264). Log 13. -/
  | reset
  deriving DecidableEq, Repr

/-- What a read by the host returned. -/
inductive HostValue where
  | word (v : Word)
  | bytes (bs : List Byte)
  | tri (e : Tri3)
  deriving DecidableEq, Repr

/-- TXD's sequencer (R48): the block counter and what the header gave (R155). -/
structure TxdSeq where
  n : Nat
  w : Nat
  h : Nat
  bpb : Nat
  pbase : Nat
  s : Nat
  deriving DecidableEq, Repr

/-- SID's sequencer in its `RUN` phase (R49, R194): the window, the `reverse` flag, the cursor and the triangle
counter. -/
structure SidSeq where
  f1 : Half
  f2 : Half
  reverse : Bool
  cur : Nat
  nt : Nat
  deriving DecidableEq, Repr

/-- The sequencer state (R20 (f)): it lives only inside one command (R48, R49), and one command runs at a time
(R239), so at most one of the two is alive. -/
inductive Sequencer where
  | idle
  | txd (q : TxdSeq)
  | sid (q : SidSeq)
  deriving DecidableEq, Repr

/-- The fields of `STATUS` that something sets (R25). `BUSY` (bit 2) is always 0 (R26). -/
inductive StatusFlag where
  | done
  | err
  | diffoor
  | idxneg
  | shortprime
  deriving DecidableEq, Repr

/-- The engine's fault kinds (60_exceptions.md R221). They end a command in a next state; they are not a stop of
the model. -/
inductive ErrKind where
  | unsupportedPixelFormat
  /-- Reserved, never raised (R222). -/
  | badMagicOrVersion
  | truncatedInput
  /-- Reserved, never raised (R223). -/
  | malformedIndexStream
  | badGeometry
  | illegalCommand
  deriving DecidableEq, Repr

/-- The registers of the REG space (R22); `cmd` has no storage (R24). -/
inductive Reg where
  | cmd
  | status
  | errcode
  | srcLen
  | blkInfo
  | blkPix
  | blkCtl
  | blkAlphaLo
  | blkAlphaHi
  | texMagic
  | texFlags
  | texGeom
  | texFmt
  | texBlocks
  | idxCount
  | baseIndex
  | triCount
  | col (i : Fin 16)
  deriving DecidableEq, Repr

/-- Stops of the model for which no effect exists because the thing accessed does not exist. -/
inductive Fault where
  /-- Raised by a host access to SRC that reaches an offset above `2^32 - 1`, which is outside the space (R43).
  Safe: the model stops. -/
  | noSuchSrcOffset
  deriving DecidableEq, Repr

/-- Stops of the model for what is no part of the interface. -/
inductive Refusal where
  /-- Raised by `exec` for an instruction that has no meaning yet. Safe: the model stops. -/
  | notModelled (mnemonic : String)
  /-- Raised by a host access to REG of a width other than 32 bits (R23: "the model refuses them"). Safe. -/
  | regWidth
  /-- Raised by a host access to REG at an offset that is no multiple of 4 or is above `0xBC` (R23: "the model
  refuses them"). Safe. -/
  | regOffset
  /-- Raised by `IDX.RESTART` where SID reads no value in the `f3` position: the class exists only there (R98).
  Safe: the model stops. Log 3. -/
  | noF3Position
  deriving DecidableEq, Repr

/-- The state of one engine (R20), and the model's own `draws`, `pending` and `readLog` (log 1, log 7). -/
structure State where
  /-- `STATUS` (R25). -/
  status : Word
  /-- `ERRCODE` (R27). -/
  errcode : Word
  /-- `SRC_LEN` (R28). -/
  srcLen : Word
  /-- `BLK_INFO` (R29). -/
  blkInfo : Word
  /-- `BLK_PIX` (R29). -/
  blkPix : Word
  /-- `BLK_CTL` (R30). -/
  blkCtl : Word
  /-- `BLK_ALPHA_LO` (R31). -/
  blkAlphaLo : Word
  /-- `BLK_ALPHA_HI` (R31). -/
  blkAlphaHi : Word
  /-- `TEX_MAGIC` (R32). -/
  texMagic : Word
  /-- `TEX_FLAGS` (R33). -/
  texFlags : Word
  /-- `TEX_GEOM` (R34). -/
  texGeom : Word
  /-- `TEX_FMT` (R35). -/
  texFmt : Word
  /-- `TEX_BLOCKS` (R36). -/
  texBlocks : Word
  /-- `IDX_COUNT` (R37). -/
  idxCount : Word
  /-- `BASE_INDEX` (R38). -/
  baseIndex : Word
  /-- `TRI_COUNT` (R39). -/
  triCount : Word
  /-- `COL[0..15]` (R40). -/
  col : Vector Word 16
  /-- SRC, keyed by byte offset (R44). -/
  src : Memory Byte
  /-- PIX, keyed by entry (R45). -/
  pix : Memory Word
  /-- TRI, keyed by word: lanes `a`, `b`, `c` of entry `t` are words `3t`, `3t + 1`, `3t + 2` (R46). -/
  tri : Memory Word
  /-- The sequencers (R48, R49). -/
  seq : Sequencer
  /-- The model's own: how many reading actions there were, the argument of the free values. -/
  draws : Nat
  /-- The model's own: the host's transactions not yet made, oldest first. -/
  pending : List Transaction
  /-- The model's own: what the host's reads returned, newest first. -/
  readLog : List HostValue
  deriving DecidableEq, Repr

/-- The state after reset (R51): every register `0x00000000`, the three memories unspecified, no command
running. `draws`, `pending` and `readLog` are the model's own (log 1, log 7). -/
def State.reset : State where
  status := 0
  errcode := 0
  srcLen := 0
  blkInfo := 0
  blkPix := 0
  blkCtl := 0
  blkAlphaLo := 0
  blkAlphaHi := 0
  texMagic := 0
  texFlags := 0
  texGeom := 0
  texFmt := 0
  texBlocks := 0
  idxCount := 0
  baseIndex := 0
  triCount := 0
  col := #v[0, 0, 0, 0, 0, 0, 0, 0, 0, 0, 0, 0, 0, 0, 0, 0]
  src := []
  pix := []
  tri := []
  seq := .idle
  draws := 0
  pending := []
  readLog := []

end Sys2Proof.Machine
end

