-- ==== Sys2Proof/Machine/Flags.lean ====
section
/-! DEFINITION. The `STATUS` register's fields (10_state.md R25) and the one way to set and to clear each. -/

namespace Sys2Proof.Machine

/-- The bit of `STATUS` a flag is held in (R25). -/
def StatusFlag.bit : StatusFlag → Nat
  | .done => 0
  | .err => 1
  | .diffoor => 4
  | .idxneg => 5
  | .shortprime => 6

def State.hasFlag (s : State) (f : StatusFlag) : Bool :=
  s.status.getLsbD f.bit

/-- `flag <NAME>` (00_scope.md R12), and the setting of `DONE` and `ERR`. -/
def State.setFlag (s : State) (f : StatusFlag) : State :=
  { s with status := s.status ||| BitVec.twoPow 32 f.bit }

def State.clearFlag (s : State) (f : StatusFlag) : State :=
  { s with status := s.status &&& ~~~(BitVec.twoPow 32 f.bit) }

/-- `if c: flag <NAME>`. -/
def State.setFlagIf (s : State) (c : Bool) (f : StatusFlag) : State :=
  if c then s.setFlag f else s

end Sys2Proof.Machine
end

