-- ==== Sys2Proof/WellFormed.lean ====
section
/-! DEFINITION. Which terms of `Instr` an encoding exists for: each field is within its width (30_encoding.md
R86, R87). The commands and the sentinel have no operand (R80, R98). -/

namespace Sys2Proof

/-- Four-bit channels and three-bit selectors (R86). -/
def IndInfo.wellFormed (f : IndInfo) : Bool :=
  decide (f.r1 < 16) && decide (f.r2 < 16) && decide (f.g1 < 16) && decide (f.g2 < 16) &&
  decide (f.b1 < 16) && decide (f.b2 < 16) && decide (f.sel1 < 8) && decide (f.sel2 < 8)

/-- Five-bit channels, three-bit deltas and three-bit selectors (R87). -/
def DiffInfo.wellFormed (f : DiffInfo) : Bool :=
  decide (f.r < 32) && decide (f.g < 32) && decide (f.b < 32) &&
  decide (f.dr < 8) && decide (f.dg < 8) && decide (f.db < 8) && decide (f.sel1 < 8) && decide (f.sel2 < 8)

def Instr.wellFormed : Instr → Bool
  | .nop => true
  | .decblk => true
  | .dectex => true
  | .decstrip => true
  | .clr => true
  | .infoInd f => f.wellFormed
  | .infoDiff f => f.wellFormed
  | .idxRestart => true

end Sys2Proof
end

