-- ==== Sys2Proof/Decode.lean ====
section
/-! DEFINITION. From bits to instructions and back. The engine has three formats with bits of their own
(30_encoding.md): `CMDW`, a value written to `REG.CMD` (R80 to R82); `INFO32`, a block-info word (R85 to R87);
`IDX16`, an index value read in the `f3` position (R98). Which format applies is told by who reads the bits
(the command register, BCC, SID), never by the bits. -/

namespace Sys2Proof

/-- The three formats of the opcode table. -/
inductive Format where
  | cmdw
  | info32
  | idx16
  deriving DecidableEq, Repr

/-- Why bits are no instruction of the table. -/
inductive DecodeReject where
  /-- Fewer bytes than the format has. -/
  | truncated
  /-- A value written to `CMD` that is none of the five commands (R82). -/
  | illegalCommand (c : Word)
  /-- An index value that is not the sentinel: the class `IDX.VALUE`, no row of the table (R98). -/
  | vertexIndex (v : Half)
  deriving DecidableEq, Repr

/-- `w[hi:lo]` (00_scope.md R9). -/
def bitField (w : Word) (hi lo : Nat) : Nat :=
  w.toNat / 2 ^ lo % 2 ^ (hi - lo + 1)

/-- The chosen positions (R85, R86, R87; decision D4). Log 9. -/
def infoLayout : InfoLayout where
  sel1 := 5
  sel2 := 2
  indR1 := 28
  indR2 := 24
  indG1 := 20
  indG2 := 16
  indB1 := 12
  indB2 := 8
  diffR := 27
  diffDR := 24
  diffG := 19
  diffDG := 16
  diffB := 11
  diffDB := 8

/-- The restart sentinel (R98, R184). -/
def sentinel : Half := 0xFFFF#16

/-- A field of `width` bits whose lowest bit is `lo`. -/
def fieldAt (w : Word) (lo width : Nat) : Nat :=
  bitField w (lo + width - 1) lo

/-- The five commands (R81); every other value is illegal (R82). -/
def decodeCommand (c : Word) : Except DecodeReject Instr :=
  if c = 0x00000000#32 then .ok .nop
  else if c = 0x00000001#32 then .ok .decblk
  else if c = 0x00000002#32 then .ok .dectex
  else if c = 0x00000003#32 then .ok .decstrip
  else if c = 0x0000000F#32 then .ok .clr
  else .error (.illegalCommand c)

/-- The fields of a block-info word whose bit 1 is 0 (R86). -/
def decodeInd (w : Word) : IndInfo where
  r1 := fieldAt w infoLayout.indR1 4
  r2 := fieldAt w infoLayout.indR2 4
  g1 := fieldAt w infoLayout.indG1 4
  g2 := fieldAt w infoLayout.indG2 4
  b1 := fieldAt w infoLayout.indB1 4
  b2 := fieldAt w infoLayout.indB2 4
  sel1 := fieldAt w infoLayout.sel1 3
  sel2 := fieldAt w infoLayout.sel2 3
  flip := w.getLsbD 0

/-- The fields of a block-info word whose bit 1 is 1 (R87). -/
def decodeDiff (w : Word) : DiffInfo where
  r := fieldAt w infoLayout.diffR 5
  dr := fieldAt w infoLayout.diffDR 3
  g := fieldAt w infoLayout.diffG 5
  dg := fieldAt w infoLayout.diffDG 3
  b := fieldAt w infoLayout.diffB 5
  db := fieldAt w infoLayout.diffDB 3
  sel1 := fieldAt w infoLayout.sel1 3
  sel2 := fieldAt w infoLayout.sel2 3
  flip := w.getLsbD 0

/-- Every 32-bit value is a legal block-info word (R91); bit 1 selects the mode (R85, R99). -/
def decodeInfo (w : Word) : Instr :=
  if w.getLsbD 1 then .infoDiff (decodeDiff w) else .infoInd (decodeInd w)

/-- A value read in the `f3` position: the sentinel or a vertex index, told apart by the whole value (R98). -/
def decodeIndex (v : Half) : Except DecodeReject Instr :=
  if v = sentinel then .ok .idxRestart else .error (.vertexIndex v)

/-- Bytes in increasing offset as a number, the byte at the lowest offset least significant
(20_memory.md R60, R62). -/
def leValue : List Byte → Nat
  | [] => 0
  | b :: bs => b.toNat + 256 * leValue bs

/-- The `n` bytes of a number, least significant first (R62, R63). -/
def leBytes : (n : Nat) → (v : Nat) → List Byte
  | 0, _ => []
  | n + 1, v => BitVec.ofNat 8 v :: leBytes n (v / 256)

/-- Bytes per element of a format: one length each (R80, R83, R98). -/
def Format.bytes : Format → Nat
  | .cmdw => 4
  | .info32 => 4
  | .idx16 => 2

/-- What a reader of format `f` makes of a number of that format's width. -/
def decodeValue (f : Format) (v : Nat) : Except DecodeReject Instr :=
  match f with
  | .cmdw => decodeCommand (BitVec.ofNat 32 v)
  | .info32 => .ok (decodeInfo (BitVec.ofNat 32 v))
  | .idx16 => decodeIndex (BitVec.ofNat 16 v)

/-- What a reader of format `f` makes of a byte string: the instruction and the bytes after it. -/
def decodeBytes (f : Format) (bs : List Byte) : Except DecodeReject (Instr × List Byte) :=
  if bs.length < f.bytes then .error .truncated
  else (decodeValue f (leValue (bs.take f.bytes))).map fun i => (i, bs.drop f.bytes)

/-- Which format a word of the opcode table has. The rows with a fixed bit 1 alone (`INFO.IND`, `INFO.DIFF`)
have at most 8 bits by the table's fixed bits, `IDX.RESTART` has 16, the commands have 32; a 32-bit table word
that is none of the five command words can only be a block-info word, every one of which is legal (R91). Log 14. -/
def tableFormat (nbits w : Nat) : Format :=
  if nbits ≤ 8 then .info32
  else if nbits ≤ 16 then .idx16
  else match decodeCommand (BitVec.ofNat 32 w) with
    | .ok _ => .cmdw
    | .error _ => .info32

/-- The instruction read from a word of the opcode table: the bits below `nbits` of `w`, zeros above, laid out
as bytes and given to the decoder of the word's format. -/
def decodeTableWord (nbits w : Nat) : Option Instr :=
  let v := w % 2 ^ nbits
  let f := tableFormat nbits v
  match decodeBytes f (leBytes f.bytes v) with
  | .ok (i, _) => some i
  | .error _ => none

/-- An instruction's bits and the format they are read in. -/
structure Coded where
  format : Format
  bits : Nat
  deriving DecidableEq, Repr

/-- The block-info word of the fields of R86. -/
def encodeInd (f : IndInfo) : Nat :=
  f.r1 * 2 ^ infoLayout.indR1 + f.r2 * 2 ^ infoLayout.indR2 + f.g1 * 2 ^ infoLayout.indG1 +
  f.g2 * 2 ^ infoLayout.indG2 + f.b1 * 2 ^ infoLayout.indB1 + f.b2 * 2 ^ infoLayout.indB2 +
  f.sel1 * 2 ^ infoLayout.sel1 + f.sel2 * 2 ^ infoLayout.sel2 + f.flip.toNat

/-- The block-info word of the fields of R87, with bit 1 set. -/
def encodeDiff (f : DiffInfo) : Nat :=
  f.r * 2 ^ infoLayout.diffR + f.dr * 2 ^ infoLayout.diffDR + f.g * 2 ^ infoLayout.diffG +
  f.dg * 2 ^ infoLayout.diffDG + f.b * 2 ^ infoLayout.diffB + f.db * 2 ^ infoLayout.diffDB +
  f.sel1 * 2 ^ infoLayout.sel1 + f.sel2 * 2 ^ infoLayout.sel2 + 2 + f.flip.toNat

/-- The words of a well-formed instruction (R81, R86, R87, R98). -/
def encode : Instr → Coded
  | .nop => ⟨.cmdw, 0x00000000⟩
  | .decblk => ⟨.cmdw, 0x00000001⟩
  | .dectex => ⟨.cmdw, 0x00000002⟩
  | .decstrip => ⟨.cmdw, 0x00000003⟩
  | .clr => ⟨.cmdw, 0x0000000F⟩
  | .infoInd f => ⟨.info32, encodeInd f⟩
  | .infoDiff f => ⟨.info32, encodeDiff f⟩
  | .idxRestart => ⟨.idx16, 0xFFFF⟩

/-- The bytes of an instruction, in increasing offset. -/
def encodeBytes (i : Instr) : List Byte :=
  leBytes (encode i).format.bytes (encode i).bits

end Sys2Proof
end

