-- ==== Sys2Proof/Machine/Operands.lean ====
section
/-! DEFINITION. What the units compute from their operands, as pure functions: BCC (40_block_color_codec.md),
the geometry and placement of TXD (41_texture_decoder.md), the rebasing of SID (42_strip_index_decoder.md); and
the values chosen for the parameters. -/

namespace Sys2Proof.Machine

/-- The parameters of the engine (00_scope.md R7). `PT_OPAQUE` and `PT_ALPHA` are free and distinct (D9, log 8);
the other three are the values the spec chose (D5, D6, D15; log 10, log 11). -/
def config : Config where
  ptOpaque := Config.freePtOpaque
  ptAlpha :=
    if Config.freePtAlpha = Config.freePtOpaque then Config.freePtOpaque + 1 else Config.freePtAlpha
  blockWordOrder := .pixFirst
  alphaPos := .alphaFirst
  stripWinding := .toggleThenEmit

/-! ### BCC -/

/-- `clamp255` (R11, R129): the only narrowing of a colour channel. -/
def clamp255 (v : Int) : Byte :=
  if v < 0 then 0 else if v > 255 then 255 else BitVec.ofNat 8 v.toNat

/-- A 4-bit channel widened: `(v << 4) + v` (R89 (a), R122). -/
def exp4 (v : Int) : Int := v * 16 + v

/-- A 5-bit channel widened, over the integers: `(v << 3) + (v >> 2)`, `>>` floor division by 4 (R89 (b), R123). -/
def exp5 (v : Int) : Int := v * 8 + v / 4

/-- A 3-bit delta as a signed value (R89 (c)). -/
def sdelta (d : Nat) : Int := if d ≤ 3 then (d : Int) else (d : Int) - 8

/-- The modifier table (R127). -/
def modTable : List (List Int) :=
  [[2, 8, -2, -8],
   [5, 17, -5, -17],
   [9, 29, -9, -29],
   [13, 42, -13, -42],
   [18, 60, -18, -60],
   [24, 80, -24, -80],
   [33, 106, -33, -106],
   [47, 183, -47, -183]]

/-- `MOD[sel][mi]` (R127). -/
def modifier (sel mi : Nat) : Int :=
  (modTable.getD sel []).getD mi 0

/-- A base colour: integers, not yet clamped (R122, R123). -/
structure Rgb where
  r : Int
  g : Int
  b : Int
  deriving DecidableEq, Repr

/-- A colour out of BCC: channels in 0..255 (R120). -/
structure Colour where
  r : Byte
  g : Byte
  b : Byte
  deriving DecidableEq, Repr

/-- What a block-info word says of its block, whatever its mode: both base colours, both selectors, the flip
flag and the `oor` output (R121 to R125). -/
structure BlockInfo where
  base1 : Rgb
  base2 : Rgb
  sel1 : Nat
  sel2 : Nat
  flip : Bool
  oor : Bool
  deriving DecidableEq, Repr

/-- Individual mode (R122); `oor` is always 0 there (R125). -/
def indBlock (f : IndInfo) : BlockInfo where
  base1 := ⟨exp4 f.r1, exp4 f.g1, exp4 f.b1⟩
  base2 := ⟨exp4 f.r2, exp4 f.g2, exp4 f.b2⟩
  sel1 := f.sel1
  sel2 := f.sel2
  flip := f.flip
  oor := false

/-- A channel sum of differential mode: the 5-bit value plus the signed delta, not wrapped and not clamped (R123). -/
def diffSum (v d : Nat) : Int := (v : Int) + sdelta d

/-- The sum left 0..31 (R125). -/
def sumOutOfRange (v : Int) : Bool := decide (v < 0) || decide (v > 31)

/-- Differential mode (R123), with `oor` (R125). -/
def diffBlock (f : DiffInfo) : BlockInfo where
  base1 := ⟨exp5 f.r, exp5 f.g, exp5 f.b⟩
  base2 := ⟨exp5 (diffSum f.r f.dr), exp5 (diffSum f.g f.dg), exp5 (diffSum f.b f.db)⟩
  sel1 := f.sel1
  sel2 := f.sel2
  flip := f.flip
  oor := sumOutOfRange (diffSum f.r f.dr) || sumOutOfRange (diffSum f.g f.dg) ||
    sumOutOfRange (diffSum f.b f.db)

/-- The block of a block-info word: bit 1 selects the mode (R121). -/
def blockOfWord (info : Word) : BlockInfo :=
  if info.getLsbD 1 then diffBlock (decodeDiff info) else indBlock (decodeInd info)

/-- The pixel index of position `i`: `2 * pix[i + 16] + pix[i]` (R88, R126). -/
def pixelIndex (pix : Word) (i : Nat) : Nat :=
  2 * (pix.getLsbD (i + 16)).toNat + (pix.getLsbD i).toNat

/-- Whether sub-block 1 governs position `i` (R128). -/
def inSubBlock1 (flip : Bool) (i : Nat) : Bool :=
  if flip then decide (i / 2 % 2 = 0) else decide (i ≤ 7)

/-- One modifier added to the three channels, then the clamp (R129). -/
def shade (base : Rgb) (m : Int) : Colour where
  r := clamp255 (base.r + m)
  g := clamp255 (base.g + m)
  b := clamp255 (base.b + m)

/-- The colour of position `i` (R129). The alpha inputs of the codec are no arguments: they have no effect
(R120, R130). -/
def blockColour (k : BlockInfo) (pix : Word) (i : Nat) : Colour :=
  if inSubBlock1 k.flip i then shade k.base1 (modifier k.sel1 (pixelIndex pix i))
  else shade k.base2 (modifier k.sel2 (pixelIndex pix i))

/-- A `COL` word, format `RGB8` (R96, R135). -/
def rgb8 (c : Colour) : Word :=
  BitVec.ofNat 32 (c.r.toNat + c.g.toNat * 2 ^ 8 + c.b.toNat * 2 ^ 16)

/-- A PIX word, format `RGBA8`, alpha always `0xFF` (R95, R163). -/
def rgba8 (c : Colour) : Word :=
  BitVec.ofNat 32 (c.r.toNat + c.g.toNat * 2 ^ 8 + c.b.toNat * 2 ^ 16 + 0xFF * 2 ^ 24)

/-- The sixteen `COL` words of a block (R135). -/
def blockWords (k : BlockInfo) (pix : Word) : Vector Word 16 :=
  let w := fun i => rgb8 (blockColour k pix i)
  #v[w 0, w 1, w 2, w 3, w 4, w 5, w 6, w 7, w 8, w 9, w 10, w 11, w 12, w 13, w 14, w 15]

/-! ### TXD -/

/-- `MIPS = TEX_GEOM[5:0]` (R34). -/
def mipsOf (geom : Word) : Nat := bitField geom 5 0

/-- `WIDTH = TEX_GEOM[18:6]` (R34). -/
def widthOf (geom : Word) : Nat := bitField geom 18 6

/-- `HEIGHT = TEX_GEOM[31:19]` (R34). -/
def heightOf (geom : Word) : Nat := bitField geom 31 19

/-- `PIXTYPE = TEX_FMT[15:8]` (R35). -/
def pixTypeOf (fmt : Word) : Byte := BitVec.ofNat 8 (bitField fmt 15 8)

/-- The two recognised pixel-type codes (R93, R165). -/
def recognised (cfg : Config) (pt : Byte) : Bool :=
  decide (pt = cfg.ptOpaque) || decide (pt = cfg.ptAlpha)

/-- Width and height are whole numbers of super-tiles, at least one each (R154). -/
def goodGeometry (w h : Nat) : Bool :=
  decide (w ≠ 0) && decide (h ≠ 0) && decide (w % 8 = 0) && decide (h % 8 = 0)

/-- `bpb`: 8 for the opaque code, else 16 (R155). -/
def bytesPerBlock (cfg : Config) (pt : Byte) : Nat :=
  if pt = cfg.ptOpaque then 8 else 16

/-- TXD's sequencer at the first block (R41, R48, R155). -/
def TxdSeq.start (cfg : Config) (geom fmt : Word) : TxdSeq where
  n := 0
  w := widthOf geom
  h := heightOf geom
  bpb := bytesPerBlock cfg (pixTypeOf fmt)
  pbase := 16 + 4 * mipsOf geom
  s := widthOf geom / 8

/-- `NBLK = (W div 4) * (H div 4)` (R155). -/
def TxdSeq.nblk (q : TxdSeq) : Nat := (q.w / 4) * (q.h / 4)

/-- The SRC length a container needs: `PBASE + NBLK * bpb` (R153 check 4). -/
def TxdSeq.needed (q : TxdSeq) : Nat := q.pbase + q.nblk * q.bpb

/-- Where the 8 colour bytes of block `n` are: after the alpha bytes of a 16-byte block (R90, R157). -/
def TxdSeq.colourOffset (cfg : Config) (q : TxdSeq) : Nat :=
  q.pbase + q.n * q.bpb + if q.bpb = 16 ∧ cfg.alphaPos = .alphaFirst then 8 else 0

/-- Where the pixel-index word of block `n` is (R84, R158). -/
def TxdSeq.pixOffset (cfg : Config) (q : TxdSeq) : Nat :=
  match cfg.blockWordOrder with
  | .pixFirst => q.colourOffset cfg
  | .infoFirst => q.colourOffset cfg + 4

/-- Where the block-info word of block `n` is (R84, R158). -/
def TxdSeq.infoOffset (cfg : Config) (q : TxdSeq) : Nat :=
  match cfg.blockWordOrder with
  | .pixFirst => q.colourOffset cfg + 4
  | .infoFirst => q.colourOffset cfg

/-- The image column of position `i` of block `n`: super-tile, block in it, column in the block (R159 to R161). -/
def TxdSeq.x (q : TxdSeq) (i : Nat) : Nat :=
  (q.n / 4 % q.s) * 8 + 4 * (q.n % 4 % 2) + i / 4

/-- The stream row of position `i` of block `n` (R159 to R161). -/
def TxdSeq.y (q : TxdSeq) (i : Nat) : Nat :=
  (q.n / 4 / q.s) * 8 + 4 * (q.n % 4 / 2) + i % 4

/-- The PIX entry of position `i` of block `n`: `(H - y - 1) * W + x` (R161). -/
def TxdSeq.entry (q : TxdSeq) (i : Nat) : Nat :=
  (q.h - q.y i - 1) * q.w + q.x i

/-! ### SID -/

/-- `wrap32(v - BASE)` for a stream value (R187, R188). -/
def rebase (base : Word) (v : Half) : Word := BitVec.setWidth 32 v - base

/-- A stream value below the base (R188). -/
def belowBase (base : Word) (v : Half) : Bool := decide (v.toNat < base.toNat)

/-- The vertices of one triangle in emission order (R186). `reverse` is the flag before the toggle. -/
def windTriangle (cfg : Config) (reverse : Bool) (f1 f2 f3 : Half) : Half × Half × Half :=
  let tested := match cfg.stripWinding with
    | .toggleThenEmit => !reverse
    | .emitThenToggle => reverse
  if tested then (f1, f3, f2) else (f1, f2, f3)

/-- The TRI entry of a triangle: each vertex rebased (R187). -/
def rebaseTri (base : Word) (t : Half × Half × Half) : Tri3 :=
  ⟨rebase base t.1, rebase base t.2.1, rebase base t.2.2⟩

/-- A vertex of the triangle is below the base (R188). -/
def triBelowBase (base : Word) (t : Half × Half × Half) : Bool :=
  belowBase base t.1 || belowBase base t.2.1 || belowBase base t.2.2

end Sys2Proof.Machine
end

