-- ==== Sys2Proof/Machine/Ops.lean ====
section
/-! DEFINITION. The named operations: reading and writing the memories and the registers, reporting a fault and
clearing it, and the steps of the three units' sequencers. -/

namespace Sys2Proof.Machine

/-! ### A memory in canonical form -/

/-- The definite value of entry `k`, if it holds one. -/
def Memory.read {α : Type} (m : Memory α) (k : Nat) : Option α :=
  match m with
  | [] => none
  | (k', v) :: rest => if k' = k then some v else Memory.read rest k

/-- Entry `k` written with `v`; the keys stay strictly rising. -/
def Memory.write {α : Type} (m : Memory α) (k : Nat) (v : α) : Memory α :=
  match m with
  | [] => [(k, v)]
  | (k', v') :: rest =>
    if k < k' then (k, v) :: (k', v') :: rest
    else if k = k' then (k, v) :: rest
    else (k', v') :: Memory.write rest k v

/-- Entries `0 .. n - 1` become unspecified (R166). -/
def Memory.forgetBelow {α : Type} (m : Memory α) (n : Nat) : Memory α :=
  m.filter fun c => decide (n ≤ c.1)

/-! ### SRC, PIX and TRI -/

/-- A SRC byte: what was written there, or a draw (R44, U2). -/
def State.srcByte (s : State) (a : Nat) : Byte :=
  (s.src.read a).getD (Config.freeSrc s.draws a)

/-- `MemRead(SRC, off, n)`: the byte at the lowest offset is least significant (R60, R62); no alignment (R64). -/
def State.memRead (s : State) (off : Nat) : (n : Nat) → Nat
  | 0 => 0
  | n + 1 => (s.srcByte off).toNat + 256 * State.memRead s (off + 1) n

/-- `MemRead(SRC, off, 4)`. -/
def State.memRead32 (s : State) (off : Nat) : Word := BitVec.ofNat 32 (s.memRead off 4)

/-- `MemRead(SRC, off, 2)`. -/
def State.memRead16 (s : State) (off : Nat) : Half := BitVec.ofNat 16 (s.memRead off 2)

/-- Bytes written to SRC from offset `off` upwards (R100). -/
def Memory.writeBytes (m : Memory Byte) (off : Nat) : List Byte → Memory Byte
  | [] => m
  | b :: bs => Memory.writeBytes (m.write off b) (off + 1) bs

/-- The `n` bytes of SRC from offset `off` upwards. -/
def State.srcBytes (s : State) (off : Nat) : (n : Nat) → List Byte
  | 0 => []
  | n + 1 => s.srcByte off :: State.srcBytes s (off + 1) n

/-- A PIX entry: what was written there, or a draw (R47, U1, U2). -/
def State.pixEntry (s : State) (p : Nat) : Word :=
  (s.pix.read p).getD (Config.freePix s.draws p)

def TriLane.index : TriLane → Nat
  | .a => 0
  | .b => 1
  | .c => 2

/-- The word of TRI that lane `l` of entry `t` is. -/
def triKey (t : Nat) (l : TriLane) : Nat := 3 * t + l.index

/-- A word of a TRI entry: what was written there, or a draw (R47, U2). -/
def State.triWord (s : State) (t : Nat) (l : TriLane) : Word :=
  (s.tri.read (triKey t l)).getD (Config.freeTri s.draws (triKey t l))

/-- `TRI[t]` (R46). -/
def State.triEntry (s : State) (t : Nat) : Tri3 :=
  ⟨s.triWord t .a, s.triWord t .b, s.triWord t .c⟩

/-- `TRI[t] <- (a, b, c)` (R12, R46). -/
def Memory.writeTri (m : Memory Word) (t : Nat) (e : Tri3) : Memory Word :=
  ((m.write (triKey t .a) e.a).write (triKey t .b) e.b).write (triKey t .c) e.c

/-- The next reading action draws its unspecified values afresh (glossary, "unspecified"; log 7). -/
def State.nextDraw (s : State) : State := { s with draws := s.draws + 1 }

/-! ### Reporting a fault, in place of taking an exception; clearing it, in place of returning from one -/

/-- The codes of R221. -/
def ErrKind.code : ErrKind → Word
  | .unsupportedPixelFormat => 1
  | .badMagicOrVersion => 2
  | .truncatedInput => 3
  | .malformedIndexStream => 4
  | .badGeometry => 5
  | .illegalCommand => 6

/-- `raise F` (R226): `ERR` is set, `ERRCODE` holds the code, nothing else is saved and the command ends. The
effect on PIX that R166 gives one fault is made before the call, as R226 orders. A newer code replaces an older
one (R229). -/
def State.raise (s : State) (e : ErrKind) : State :=
  { s.setFlag .err with errcode := e.code }

/-- The only way, besides reset, to clear `ERR` and the sticky flags (R211, R229). -/
def State.clearStatus (s : State) : State :=
  { s with status := 0, errcode := 0 }

/-! ### Registers -/

/-- The map of R22. -/
def Reg.offset : Reg → Nat
  | .cmd => 0x00
  | .status => 0x04
  | .errcode => 0x08
  | .srcLen => 0x0C
  | .blkInfo => 0x10
  | .blkPix => 0x14
  | .blkCtl => 0x18
  | .blkAlphaLo => 0x1C
  | .blkAlphaHi => 0x20
  | .texMagic => 0x24
  | .texFlags => 0x28
  | .texGeom => 0x2C
  | .texFmt => 0x30
  | .texBlocks => 0x34
  | .idxCount => 0x38
  | .baseIndex => 0x3C
  | .triCount => 0x40
  | .col i => 0x80 + 4 * i.val

/-- Every register of R22. -/
def Reg.all : List Reg :=
  [.cmd, .status, .errcode, .srcLen, .blkInfo, .blkPix, .blkCtl, .blkAlphaLo, .blkAlphaHi, .texMagic,
   .texFlags, .texGeom, .texFmt, .texBlocks, .idxCount, .baseIndex, .triCount, .col 0, .col 1, .col 2, .col 3,
   .col 4, .col 5, .col 6, .col 7, .col 8, .col 9, .col 10, .col 11, .col 12, .col 13, .col 14, .col 15]

/-- The register at an offset; none where the map has none (R22: `0x44` to `0x7C`). -/
def Reg.ofOffset (off : Nat) : Option Reg :=
  Reg.all.find? fun r => decide (r.offset = off)

/-- Offsets of the interface: multiples of 4 up to `0xBC` (R23). -/
def legalRegOffset (off : Nat) : Bool := decide (off % 4 = 0) && decide (off ≤ 0xBC)

/-- `REG.name` as the host reads it; `CMD` reads 0 (R22, R23). -/
def State.readReg (s : State) : Reg → Word
  | .cmd => 0
  | .status => s.status
  | .errcode => s.errcode
  | .srcLen => s.srcLen
  | .blkInfo => s.blkInfo
  | .blkPix => s.blkPix
  | .blkCtl => s.blkCtl
  | .blkAlphaLo => s.blkAlphaLo
  | .blkAlphaHi => s.blkAlphaHi
  | .texMagic => s.texMagic
  | .texFlags => s.texFlags
  | .texGeom => s.texGeom
  | .texFmt => s.texFmt
  | .texBlocks => s.texBlocks
  | .idxCount => s.idxCount
  | .baseIndex => s.baseIndex
  | .triCount => s.triCount
  | .col i => s.col[i]

/-- A host write of a register other than `CMD`: the read-write ones take the value, `BLK_CTL` its bit 0 alone
(R30), the read-only ones change nothing (R23). -/
def State.writeReg (s : State) (r : Reg) (v : Word) : State :=
  match r with
  | .cmd => s
  | .status => s
  | .errcode => s
  | .srcLen => { s with srcLen := v }
  | .blkInfo => { s with blkInfo := v }
  | .blkPix => { s with blkPix := v }
  | .blkCtl => { s with blkCtl := v &&& 1 }
  | .blkAlphaLo => { s with blkAlphaLo := v }
  | .blkAlphaHi => { s with blkAlphaHi := v }
  | .texMagic => s
  | .texFlags => s
  | .texGeom => s
  | .texFmt => s
  | .texBlocks => s
  | .idxCount => { s with idxCount := v }
  | .baseIndex => { s with baseIndex := v }
  | .triCount => s
  | .col _ => s

/-! ### BCC: the block of the operand registers -/

/-- A block decoded from a block-info word's fields and the word of `BLK_PIX` into `COL`, with `DIFFOOR`
(R125, R135). -/
def State.decodeToCol (s : State) (k : BlockInfo) : State :=
  { s with col := blockWords k s.blkPix }.setFlagIf k.oor .diffoor

/-! ### TXD: header, blocks, end -/

/-- The four header words latched (R151). -/
def State.latchHeader (s : State) : State :=
  { s with
    texMagic := s.memRead32 0
    texFlags := s.memRead32 4
    texGeom := s.memRead32 8
    texFmt := s.memRead32 12 }.nextDraw

/-- The sixteen pixels of a block (R161, R163). -/
def placeBlock (q : TxdSeq) (k : BlockInfo) (pixWord : Word) (m : Memory Word) : Memory Word :=
  (List.range 16).foldl (fun m i => m.write (q.entry i) (rgba8 (blockColour k pixWord i))) m

/-- TXD's sequencer where it has a block left to read (R157). -/
def State.txdReading (s : State) : Option TxdSeq :=
  match s.seq with
  | .txd q => if q.n < q.nblk then some q else none
  | _ => none

/-- Block `n` decoded from its block-info word's fields: the pixel-index word is read, the sixteen pixels are
written, `DIFFOOR` is set if need be, `n` advances (R150, R158, R168). -/
def State.decodeToPix (cfg : Config) (s : State) (q : TxdSeq) (k : BlockInfo) : State :=
  ({ s with
    pix := placeBlock q k (s.memRead32 (q.pixOffset cfg)) s.pix
    seq := .txd { q with n := q.n + 1 } }.setFlagIf k.oor .diffoor).nextDraw

/-- One pass of TXD's loop: the block-info word of block `n` is read and the block is decoded (R150). -/
def State.txdBlock (cfg : Config) (s : State) : State :=
  match s.seq with
  | .txd q => s.decodeToPix cfg q (blockOfWord (s.memRead32 (q.infoOffset cfg)))
  | _ => s

/-- `k` passes of TXD's loop. -/
def State.txdBlocks (cfg : Config) (s : State) : (k : Nat) → State
  | 0 => s
  | k + 1 => State.txdBlocks cfg (s.txdBlock cfg) k

/-- The end of a `DECTEX` without fault: `TEX_BLOCKS` is the final block counter, `DONE` is set (R36, R169). -/
def State.txdEnd (s : State) : State :=
  match s.seq with
  | .txd q => { s with texBlocks := BitVec.ofNat 32 q.n, seq := .idle }.setFlag .done
  | _ => s

/-! ### SID: priming, elements, end -/

/-- `val(k)` (R70, R181). -/
def State.streamValue (s : State) (k : Nat) : Half := s.memRead16 (2 * k)

/-- `done:` of R180: `TRI_COUNT` is the triangle counter, `DONE` is set (R193). -/
def State.sidEnd (s : State) (nt : Nat) : State :=
  { s with triCount := BitVec.ofNat 32 nt, seq := .idle }.setFlag .done

/-- Priming at the start and after a restart (R183, R184): two values are taken into the window as they are
(R185); with fewer than two left the decoder ends with `SHORTPRIME` (R190). -/
def State.sidPrime (s : State) (cur nt : Nat) : State :=
  if s.idxCount.toNat - cur < 2 then ((s.setFlag .shortprime).sidEnd nt).nextDraw
  else
    { s with
      seq := .sid
        { f1 := s.streamValue cur
          f2 := s.streamValue (cur + 1)
          reverse := true
          cur := cur + 2
          nt := nt } }.nextDraw

/-- A vertex index read as `f3`: toggle, emit rebased, slide (R186 to R189). -/
def State.sidEmit (cfg : Config) (s : State) (q : SidSeq) (f3 : Half) : State :=
  let t := windTriangle cfg q.reverse q.f1 q.f2 f3
  ({ s with
    tri := s.tri.writeTri q.nt (rebaseTri s.baseIndex t)
    seq := .sid
      { f1 := q.f2
        f2 := f3
        reverse := !q.reverse
        cur := q.cur + 1
        nt := q.nt + 1 } }.setFlagIf (triBelowBase s.baseIndex t) .idxneg).nextDraw

/-- SID's sequencer where it has a value left to read as `f3` (R194). -/
def State.sidReading (s : State) : Option SidSeq :=
  match s.seq with
  | .sid q => if q.cur < s.idxCount.toNat then some q else none
  | _ => none

/-- The sentinel read as `f3`: the strip ends and the next two values prime a new window (R184). -/
def State.sidRestart (s : State) (q : SidSeq) : State :=
  s.sidPrime (q.cur + 1) q.nt

/-- One pass of SID's loop (R180), or its end. -/
def State.sidElement (cfg : Config) (s : State) : State :=
  match s.seq with
  | .sid q =>
    if q.cur < s.idxCount.toNat then
      if s.streamValue q.cur = sentinel then s.sidRestart q
      else s.sidEmit cfg q (s.streamValue q.cur)
    else s.sidEnd q.nt
  | _ => s

/-- `k` passes of SID's loop; passes after its end do nothing. -/
def State.sidElements (cfg : Config) (s : State) : (k : Nat) → State
  | 0 => s
  | k + 1 => State.sidElements cfg (s.sidElement cfg) k

end Sys2Proof.Machine
end

