-- ==== Sys2Proof/Machine/ColorCodec.lean ====
section
/-! DEFINITION. BCC (40_block_color_codec.md): `DECBLK` and the two forms of the block-info word. -/

namespace Sys2Proof.Machine

/-- `DECBLK` (R135). -/
def execDecblk (s : State) : Host.Outcome State Fault Refusal :=
  .next (((s.clearFlag .done).decodeToCol (blockOfWord s.blkInfo)).setFlag .done)

/-- A block-info word reaches BCC with the fields already read: from TXD where it has a block to decode, whose
sixteen pixels then go to PIX (R150, R158), else from `DECBLK`'s operands, whose colours go to `COL` (R135).
Log 3. -/
def decodeBlockWord (k : BlockInfo) (s : State) : State :=
  match s.txdReading with
  | some q => s.decodeToPix config q k
  | none => s.decodeToCol k

/-- `INFO.IND` (R86, R122). -/
def execInfoInd (f : IndInfo) (s : State) : Host.Outcome State Fault Refusal :=
  .next (decodeBlockWord (indBlock f) s)

/-- `INFO.DIFF` (R87, R123, R125). -/
def execInfoDiff (f : DiffInfo) (s : State) : Host.Outcome State Fault Refusal :=
  .next (decodeBlockWord (diffBlock f) s)

end Sys2Proof.Machine
end

