-- ==== Sys2Proof/Machine/Control.lean ====
section
/-! DEFINITION. The control commands (43_control_ops.md): `NOP`, `CLR`, and the illegal command. -/

namespace Sys2Proof.Machine

/-- `NOP` (R210). -/
def execNop (s : State) : Host.Outcome State Fault Refusal := .next s

/-- `CLR` (R211). -/
def execClr (s : State) : Host.Outcome State Fault Refusal := .next s.clearStatus

/-- A value written to `CMD` that is none of the five commands (R82, R212). It is no row of the opcode table. -/
def illegalCommand (s : State) : State := (s.clearFlag .done).raise .illegalCommand

end Sys2Proof.Machine
end

