-- ==== Sys2Proof/Machine/Strip.lean ====
section
/-! DEFINITION. SID (42_strip_index_decoder.md): `DECSTRIP` and the restart sentinel. -/

namespace Sys2Proof.Machine

/-- What every `DECSTRIP` does first (R180); the sequencer starts from scratch (R252). -/
def decstripStart (s : State) : State :=
  { s.clearFlag .done with triCount := 0, seq := .idle }

/-- `DECSTRIP` for given parameters (R180): one check (R182), priming, then at most `IDX_COUNT` passes (R191). -/
def decstripWith (cfg : Config) (s : State) : State :=
  if s.srcLen.toNat < 2 * s.idxCount.toNat then (decstripStart s).raise .truncatedInput
  else ((decstripStart s).sidPrime 0 0).sidElements cfg s.idxCount.toNat

/-- `DECSTRIP` (R180). -/
def execDecstrip (s : State) : Host.Outcome State Fault Refusal :=
  .next (decstripWith config s)

/-- `IDX.RESTART` (R184, R185, R190): only a value read in the `f3` position is of this class (R98). Log 3. -/
def execIdxRestart (s : State) : Host.Outcome State Fault Refusal :=
  match s.sidReading with
  | some q => .next (s.sidRestart q)
  | none => .refused .noF3Position

end Sys2Proof.Machine
end

