-- ==== Sys2Proof/Machine/Texture.lean ====
section
/-! DEFINITION. TXD (41_texture_decoder.md): `DECTEX`. -/

namespace Sys2Proof.Machine

/-- `DECTEX` after the header is latched: checks 2, 3 and 4 of R153 in that order, then the blocks (R150). -/
def dectexBody (cfg : Config) (s : State) : State :=
  let q := TxdSeq.start cfg s.texGeom s.texFmt
  if recognised cfg (pixTypeOf s.texFmt) = false then s.raise .unsupportedPixelFormat
  else if goodGeometry q.w q.h = false then s.raise .badGeometry
  else if s.srcLen.toNat < q.needed then
    { s with pix := s.pix.forgetBelow (q.w * q.h) }.raise .truncatedInput
  else ({ s with seq := .txd q }.txdBlocks cfg q.nblk).txdEnd

/-- What every `DECTEX` does first (R150); the sequencer starts from scratch (R252). -/
def dectexStart (s : State) : State :=
  { s.clearFlag .done with texBlocks := 0, seq := .idle }

/-- `DECTEX` for given parameters (R150): check 1 comes before the header is read (R153). -/
def dectexWith (cfg : Config) (s : State) : State :=
  if s.srcLen.toNat < 16 then (dectexStart s).raise .truncatedInput
  else dectexBody cfg (dectexStart s).latchHeader

/-- `DECTEX` (R150). -/
def execDectex (s : State) : Host.Outcome State Fault Refusal :=
  .next (dectexWith config s)

end Sys2Proof.Machine
end

