-- ==== Sys2Proof/Machine/Dispatch.lean ====
section
/-! DEFINITION. One arm per constructor of `Instr`, each one call of its meaning. -/

namespace Sys2Proof.Machine

def exec (i : Instr) (s : State) : Host.Outcome State Fault Refusal :=
  match i with
  | .nop => Sys2Proof.Machine.execNop s
  | .decblk => Sys2Proof.Machine.execDecblk s
  | .dectex => Sys2Proof.Machine.execDectex s
  | .decstrip => Sys2Proof.Machine.execDecstrip s
  | .clr => Sys2Proof.Machine.execClr s
  | .infoInd f => Sys2Proof.Machine.execInfoInd f s
  | .infoDiff f => Sys2Proof.Machine.execInfoDiff f s
  | .idxRestart => Sys2Proof.Machine.execIdxRestart s

end Sys2Proof.Machine
end

