-- ==== Sys2Proof/Machine/Fetch.lean ====
section
/-! DEFINITION. What the engine does next: where the next instruction's bits come from, and the transactions that
run none. A command comes from the host's write to `CMD` (10_state.md R24); a block-info word and an index value
come from SRC, where the sequencer of a running command stands (41_texture_decoder.md R158, 42_strip_index_decoder.md
R194). -/

namespace Sys2Proof.Machine

/-- The next thing to happen: an instruction to run in a state, or an outcome already known. -/
inductive Work where
  | run (i : Instr) (s : State)
  | finish (o : Host.Outcome State Fault Refusal)
  deriving Repr

/-- What a read returned goes to the host; the next read draws afresh. -/
def State.returnToHost (s : State) (v : HostValue) : State :=
  { s with readLog := v :: s.readLog }.nextDraw

/-- The platform's reset (R250, R251): the state of R51; the host keeps its transactions and what it read, and no
draw is used again. Log 13. -/
def State.platformReset (s : State) : State :=
  { State.reset with draws := s.draws, pending := s.pending, readLog := s.readLog }

/-- A write to `CMD` (R24, R80 to R82). -/
def writeCommand (v : Word) (s : State) : Work :=
  match decodeCommand v with
  | .ok i => .run i s
  | .error _ => .finish (.next (illegalCommand s))

/-- One transaction of the host or the platform. -/
def transact (t : Transaction) (s : State) : Work :=
  match t with
  | .regWrite width off v =>
    if width ≠ .w32 then .finish (.refused .regWidth)
    else if legalRegOffset off.toNat = false then .finish (.refused .regOffset)
    else match Reg.ofOffset off.toNat with
      | some .cmd => writeCommand v s
      | some r => .finish (.next (s.writeReg r v))
      | none => .finish (.next s)
  | .regRead width off =>
    if width ≠ .w32 then .finish (.refused .regWidth)
    else if legalRegOffset off.toNat = false then .finish (.refused .regOffset)
    else match Reg.ofOffset off.toNat with
      | some r => .finish (.next (s.returnToHost (.word (s.readReg r))))
      | none => .finish (.next (s.returnToHost (.word 0)))
  | .srcWrite off bs =>
    if off.toNat + bs.length ≤ 2 ^ 32 then .finish (.next { s with src := s.src.writeBytes off.toNat bs })
    else .finish (.fault .noSuchSrcOffset)
  | .srcRead off n =>
    if off.toNat + n ≤ 2 ^ 32 then .finish (.next (s.returnToHost (.bytes (s.srcBytes off.toNat n))))
    else .finish (.fault .noSuchSrcOffset)
  | .pixWrite p v => .finish (.next { s with pix := s.pix.write p.toNat v })
  | .pixRead p => .finish (.next (s.returnToHost (.word (s.pixEntry p.toNat))))
  | .triWrite t e => .finish (.next { s with tri := s.tri.writeTri t.toNat e })
  | .triRead t => .finish (.next (s.returnToHost (.tri (s.triEntry t.toNat))))
  | .triWriteWord t l v => .finish (.next { s with tri := s.tri.write (triKey t.toNat l) v })
  | .triReadWord t l => .finish (.next (s.returnToHost (.word (s.triWord t.toNat l))))
  | .reset => .finish (.next s.platformReset)

/-- The next thing to happen. A sequencer that is alive goes on before the host makes another transaction (R73,
R256); with none alive the host's oldest transaction is made; with none of these the engine is idle and its state
stays (R241). Log 4. -/
def nextWork (s : State) : Work :=
  match s.seq with
  | .txd q =>
    if q.n < q.nblk then .run (decodeInfo (s.memRead32 (q.infoOffset config))) s
    else .finish (.next s.txdEnd)
  | .sid q =>
    if q.cur < s.idxCount.toNat then
      match decodeIndex (s.streamValue q.cur) with
      | .ok i => .run i s
      | .error _ => .finish (.next (s.sidEmit config q (s.streamValue q.cur)))
    else .finish (.next (s.sidEnd q.nt))
  | .idle =>
    match s.pending with
    | [] => .finish (.next s)
    | t :: rest => transact t { s with pending := rest }

/-- A table word placed where `nextWork` takes the next instruction of its format: a command as the host's next
transaction, a write to `CMD`; a block-info word as that of the first block of an 8 by 8 opaque image with no
mipmap entries, whose payload starts at SRC offset 16 (R155); an index value as the third of a three-value
stream, where SID reads its first `f3` (R194). Log 2. -/
def placeTableWord (nbits w : Nat) (s : State) : State :=
  let v := w % 2 ^ nbits
  match tableFormat nbits v with
  | .cmdw => { s with seq := .idle, pending := .regWrite .w32 0 (BitVec.ofNat 32 v) :: s.pending }
  | .info32 =>
    let q : TxdSeq := { n := 0, w := 8, h := 8, bpb := 8, pbase := 16, s := 1 }
    { s with
      seq := .txd q
      srcLen := 48
      src := s.src.writeBytes (q.infoOffset config) (leBytes 4 v) }
  | .idx16 =>
    { s with
      seq := .sid { f1 := 0, f2 := 0, reverse := true, cur := 2, nt := 0 }
      srcLen := 6
      idxCount := 3
      src := s.src.writeBytes 4 (leBytes 2 v) }

end Sys2Proof.Machine
end

