-- ==== Sys2Proof/Machine/Step.lean ====
section
/-! DEFINITION. One step of the machine: three outcomes, next, fault and refusal. -/

namespace Sys2Proof.Machine

/-- The next transaction, with the command it starts run to completion (R24, R256), or, where a sequencer is alive,
its next element (R194). -/
def step (s : State) : Host.Outcome State Fault Refusal :=
  match nextWork s with
  | .run i s' => exec i s'
  | .finish o => o

/-- `s` with a word of the opcode table standing where `step` takes its next instruction. -/
def State.withFetchWord (s : State) (nbits w : Nat) : State := placeTableWord nbits w s

end Sys2Proof.Machine
end

