-- ==== Sys2Proof/Safety.lean ====
section
/-! DEFINITION. The terms claims are stated in: what holds of every state of a run, which transactions are part
of the interface, and what a safe outcome is. -/

namespace Sys2Proof.Machine

/-- TXD's sequencer stands in a legal image (41_texture_decoder.md R154, R155) whose whole container lies below
`SRC_LEN` (R153 check 4), with at most all its blocks done (10_state.md R41). -/
structure TxdSeq.Legal (q : TxdSeq) (srcLen : Nat) : Prop where
  geometry : goodGeometry q.w q.h = true
  width : q.w < 8192
  height : q.h < 8192
  superTiles : q.s = q.w / 8
  blockBytes : q.bpb = 8 ∨ q.bpb = 16
  payload : 16 ≤ q.pbase ∧ q.pbase ≤ 268
  position : q.n ≤ q.nblk
  container : q.needed ≤ srcLen

/-- SID's sequencer stands inside its stream, which lies below `SRC_LEN` (42_strip_index_decoder.md R182, R191). -/
structure SidSeq.Legal (q : SidSeq) (srcLen idxCount : Nat) : Prop where
  primed : q.nt + 2 ≤ q.cur
  position : q.cur ≤ idxCount
  stream : 2 * idxCount ≤ srcLen

/-- A sequencer that is alive is legal. -/
def legalSequencer (s : State) : Prop :=
  match s.seq with
  | .idle => True
  | .txd q => q.Legal s.srcLen.toNat
  | .sid q => q.Legal s.srcLen.toNat s.idxCount.toNat

/-- What every step keeps. -/
structure Inv (s : State) : Prop where
  /-- `BUSY` and the reserved bits of `STATUS` read 0 (R25, R26). -/
  statusReserved : s.status &&& 0xFFFFFF8C#32 = 0
  /-- `ERRCODE` holds no code but 0, 1, 3, 5 and 6 (R221 to R223). -/
  errcodeRaised : s.errcode ∈ [0#32, 1#32, 3#32, 5#32, 6#32]
  /-- `ERRCODE` is not 0 exactly when `ERR` is 1 (R27). -/
  errcodeErr : s.errcode ≠ 0 ↔ s.hasFlag .err = true
  /-- Bits 31:1 of `BLK_CTL` read 0 (R30). -/
  blkCtlReserved : s.blkCtl &&& 0xFFFFFFFE#32 = 0
  /-- Bits 31:24 of every `COL` read 0 (R40). -/
  colReserved : ∀ i : Fin 16, s.col[i] &&& 0xFF000000#32 = 0
  /-- SRC is in canonical form over `2^32` bytes (R43). -/
  srcWf : s.src.wf (2 ^ 32)
  /-- PIX is in canonical form over `2^26` entries (R43, R72). -/
  pixWf : s.pix.wf (2 ^ 26)
  /-- TRI is in canonical form over `2^32` entries of three words (R43, R72). -/
  triWf : s.tri.wf (3 * 2 ^ 32)
  /-- A live sequencer is legal (R48, R49). -/
  sequencer : legalSequencer s

/-- No command is running (R50, R263): nothing is in flight. -/
abbrev State.Quiescent (s : State) : Prop := s.seq = .idle

/-- The transactions the interface has (R23, R43): 32-bit REG accesses at a legal offset, SRC accesses inside
the space, and every access to PIX and TRI. -/
def Transaction.inInterface : Transaction → Bool
  | .regWrite width off _ => decide (width = .w32) && legalRegOffset off.toNat
  | .regRead width off => decide (width = .w32) && legalRegOffset off.toNat
  | .srcWrite off bs => decide (off.toNat + bs.length ≤ 2 ^ 32)
  | .srcRead off n => decide (off.toNat + n ≤ 2 ^ 32)
  | .pixWrite _ _ => true
  | .pixRead _ => true
  | .triWrite _ _ => true
  | .triRead _ => true
  | .triWriteWord _ _ _ => true
  | .triReadWord _ _ => true
  | .reset => true

/-- The model went on: neither a fault nor a refusal. -/
def Safe (o : Host.Outcome State Fault Refusal) : Prop := ∃ t, o = .next t

end Sys2Proof.Machine
end

