-- ==== Sys2Proof/Certificates/Slice0/Obligations.lean ====
section
/-! DEFINITION. The statements for the provers. What a result must be is computed here a second time from the
spec's rules, in `Sys2Proof.Reference`, and not by the functions the meanings call. -/

namespace Sys2Proof.Reference

open Sys2Proof.Machine

/-! ### BCC (40_block_color_codec.md) -/

/-- The `width` bits of a word whose lowest bit is `lo`, as a number (00_scope.md R9). -/
def field (w : Word) (lo width : Nat) : Nat := (w.extractLsb' lo width).toNat

/-- A 3-bit delta, "values 4–7 interpreted as negative: subtract 8" (R89 (c)). -/
def signed3 (d : Nat) : Int := if d < 4 then (d : Int) else (d : Int) - 8

/-- `exp5` in the closed form of R124: `8 * v + floor(v / 4)`. -/
def expand5 (v : Int) : Int := 8 * v + v / 4

/-- The modifier table of R127 by its two positive columns; columns 2 and 3 are their negatives. -/
def tableEntry (sel mi : Nat) : Int :=
  let small : List Int := [2, 5, 9, 13, 18, 24, 33, 47]
  let large : List Int := [8, 17, 29, 42, 60, 80, 106, 183]
  match mi with
  | 0 => small.getD sel 0
  | 1 => large.getD sel 0
  | 2 => -small.getD sel 0
  | _ => -large.getD sel 0

/-- The differential sum of channel `c` (0 red, 1 green, 2 blue) of a block-info word (R87, R123). -/
def channelSum (info : Word) (c : Nat) : Int :=
  (field info (27 - 8 * c) 5 : Int) + signed3 (field info (24 - 8 * c) 3)

/-- Channel `c` of a sub-block's base colour (R86, R87, R122, R123). -/
def baseChannel (info : Word) (second : Bool) (c : Nat) : Int :=
  if field info 1 1 = 0 then 17 * (field info (if second then 24 - 8 * c else 28 - 8 * c) 4 : Int)
  else if second then expand5 (channelSum info c)
  else expand5 (field info (27 - 8 * c) 5)

/-- Sub-block 2 governs position `i` (R128). -/
def second (info : Word) (i : Nat) : Bool :=
  if field info 0 1 = 0 then decide (8 ≤ i) else decide (i / 2 % 2 = 1)

/-- Channel `c` of the colour of position `i` (R126, R129). -/
def channel (info pix : Word) (i c : Nat) : Int :=
  let sel := field info (if second info i then 2 else 5) 3
  let mi := 2 * field pix (i + 16) 1 + field pix i 1
  max 0 (min 255 (baseChannel info (second info i) c + tableEntry sel mi))

/-- The colour of position `i` with red in the low byte (R96). -/
def rgbNumber (info pix : Word) (i : Nat) : Int :=
  channel info pix i 0 + 2 ^ 8 * channel info pix i 1 + 2 ^ 16 * channel info pix i 2

/-- The PIX word of position `i`: the colour with alpha `0xFF` (R95, R163). -/
def rgbaWord (info pix : Word) (i : Nat) : Word :=
  BitVec.ofInt 32 (rgbNumber info pix i + 0xFF * 2 ^ 24)

/-- `oor` (R125): differential mode and a sum outside 0..31 in some channel. -/
def outOfRange (info : Word) : Bool :=
  decide (field info 1 1 = 1) &&
    (List.range 3).any fun c => decide (channelSum info c < 0) || decide (31 < channelSum info c)

/-! ### TXD (41_texture_decoder.md), of the container that SRC holds in a state -/

/-- `MIPS` (R34). -/
def mips (s : State) : Nat := field (s.memRead32 8) 0 6

/-- `W` (R34). -/
def width (s : State) : Nat := field (s.memRead32 8) 6 13

/-- `H` (R34). -/
def height (s : State) : Nat := field (s.memRead32 8) 19 13

/-- `PT` (R35). -/
def pixType (s : State) : Byte := (s.memRead32 12).extractLsb' 8 8

/-- `bpb` (R155). -/
def bpb (s : State) : Nat := if pixType s = config.ptOpaque then 8 else 16

/-- `NBLK` (R155). -/
def nblk (s : State) : Nat := width s * height s / 16

/-- `PBASE` (R155). -/
def pbase (s : State) : Nat := 16 + 4 * mips s

/-- The pixel type is one of the two recognised codes (R93). -/
def TypeKnown (s : State) : Prop := pixType s = config.ptOpaque ∨ pixType s = config.ptAlpha

/-- Width and height are multiples of 8 and at least 8 (R154). -/
def SizeGood (s : State) : Prop := 8 ∣ width s ∧ 8 ∣ height s ∧ 8 ≤ width s ∧ 8 ≤ height s

/-- The whole container lies below `SRC_LEN` (R153 check 4). -/
def Complete (s : State) : Prop := pbase s + nblk s * bpb s ≤ s.srcLen.toNat

/-- All four checks of R153 pass. -/
def ChecksPass (s : State) : Prop := 16 ≤ s.srcLen.toNat ∧ TypeKnown s ∧ SizeGood s ∧ Complete s

/-- Where the colour bytes of block `n` begin: the last 8 bytes of the block (R157). -/
def colourBytes (s : State) (n : Nat) : Nat := pbase s + n * bpb s + (bpb s - 8)

/-- The state as the reads of block `n` see it: the header read was one draw, each block before `n` one more
(log 7). Where the host wrote the bytes the draws play no part. -/
def atBlock (s : State) (n : Nat) : State := { s with draws := s.draws + 1 + n }

/-- The pixel-index word of block `n` (R84, R158). -/
def pixWord (s : State) (n : Nat) : Word := (atBlock s n).memRead32 (colourBytes s n)

/-- The block-info word of block `n` (R84, R158). -/
def infoWord (s : State) (n : Nat) : Word := (atBlock s n).memRead32 (colourBytes s n + 4)

/-- The PIX entry of position `i` of block `n` in an image of `w` by `h` pixels (R159 to R161). -/
def place (w h n i : Nat) : Nat :=
  let x := 8 * (n / 4 % (w / 8)) + (if n % 2 = 1 then 4 else 0) + i / 4
  let y := 8 * (n / 4 / (w / 8)) + (if n % 4 < 2 then 0 else 4) + i % 4
  (h - y - 1) * w + x

/-- A fault reported (R226): `DONE` stays at 0, `ERR` is set, `ERRCODE` holds the code. -/
def faulted (s : State) (code : Word) : State :=
  { s with status := (s.status &&& ~~~1#32) ||| 2#32, errcode := code }

/-- What a `DECTEX` that finds 16 header bytes has done before its second check (R150, R151). -/
def latched (s : State) : State :=
  { s with
    texBlocks := 0
    texMagic := s.memRead32 0
    texFlags := s.memRead32 4
    texGeom := s.memRead32 8
    texFmt := s.memRead32 12
    draws := s.draws + 1
    seq := .idle }

/-! ### SID (42_strip_index_decoder.md), over the list of the stream's values -/

/-- The triangles from a primed window on, and whether the stream ends in a short prime (R184 to R190). -/
def stripFrom (f1 f2 : Nat) (reverse : Bool) : List Nat → List (Nat × Nat × Nat) × Bool
  | [] => ([], false)
  | f3 :: rest =>
    if f3 = 0xFFFF then
      match rest with
      | a :: b :: rest' => stripFrom a b true rest'
      | _ => ([], true)
    else
      let more := stripFrom f2 f3 (!reverse) rest
      ((if reverse then (f1, f2, f3) else (f1, f3, f2)) :: more.1, more.2)

/-- The triangles of a whole stream: prime with the first two values (R183, R190). -/
def strip : List Nat → List (Nat × Nat × Nat) × Bool
  | f1 :: f2 :: rest => stripFrom f1 f2 true rest
  | _ => ([], true)

/-- A rebased index (R187, R188). -/
def rebased (base : Word) (v : Nat) : Word := BitVec.ofInt 32 ((v : Int) - (base.toNat : Int))

/-- Some vertex of some triangle is below the base (R188). -/
def someBelow (base : Word) (ts : List (Nat × Nat × Nat)) : Bool :=
  ts.any fun t => decide (t.1 < base.toNat) || decide (t.2.1 < base.toNat) || decide (t.2.2 < base.toNat)

/-- What a `DECSTRIP` has done before it primes (R180). -/
def stripStarted (s : State) : State :=
  { s with status := s.status &&& ~~~1#32, triCount := 0, seq := .idle }

end Sys2Proof.Reference

open Sys2Proof Sys2Proof.Machine Sys2Proof.Reference

/-! ### Reset and the invariant -/

/-- R51: after reset every register of R22 reads 0, no command runs, and no entry of SRC, PIX or TRI has a value
of its own: whatever the number of the draw, it reads as a free value. -/
def Obligations.ResetStateIsAsTheSpecSays : Prop :=
  (∀ r : Reg, State.reset.readReg r = 0) ∧ State.reset.seq = .idle ∧
    ∀ d a : Nat,
      ({ State.reset with draws := d }).srcByte a = Config.freeSrc d a ∧
      ({ State.reset with draws := d }).pixEntry a = Config.freePix d a ∧
      ∀ l : TriLane, ({ State.reset with draws := d }).triWord a l = Config.freeTri d (triKey a l)

/-- The state after reset meets the invariant. -/
def Obligations.ResetMeetsTheInvariant : Prop := Inv State.reset

/-- Every step keeps the invariant, from every state that meets it: reserved bits stay 0 (R25, R30, R40), only
raised codes stand in `ERRCODE` and they stand there exactly when `ERR` is set (R27, R221), the memories keep
their canonical form inside their spaces (R43, R72), a live sequencer stays legal (R48, R49). -/
def Obligations.EveryStepKeepsTheInvariant : Prop :=
  ∀ s t : State, Inv s → step s = .next t → Inv t

/-! ### Encodings -/

/-- Words written out from the encodings of R81, R86, R87 and R98, in the five commands, the two modes and the
sentinel. `0xF0813C1C` and `0xA552FC76` are taken apart in 95_test_vectors.md section 2.2. -/
def Obligations.WrittenOutWordsDecode : Prop :=
  decodeCommand 0x00000000#32 = .ok .nop ∧ decodeCommand 0x00000001#32 = .ok .decblk ∧
  decodeCommand 0x00000002#32 = .ok .dectex ∧ decodeCommand 0x00000003#32 = .ok .decstrip ∧
  decodeCommand 0x0000000F#32 = .ok .clr ∧ decodeCommand 0x00000101#32 = .error (.illegalCommand 0x101#32) ∧
  decodeInfo 0b1111_0000_1000_0001_0011_1100_000_111_0_0#32 =
    .infoInd { r1 := 15, r2 := 0, g1 := 8, g2 := 1, b1 := 3, b2 := 12, sel1 := 0, sel2 := 7, flip := false } ∧
  decodeInfo 0b10100_101_01010_010_11111_100_011_101_1_0#32 =
    .infoDiff { r := 20, dr := 5, g := 10, dg := 2, b := 31, db := 4, sel1 := 3, sel2 := 5, flip := false } ∧
  decodeIndex 0xFFFF#16 = .ok .idxRestart ∧ decodeIndex 0xFFFE#16 = .error (.vertexIndex 0xFFFE#16)

/-- Decoding what a well-formed instruction encodes to gives it back, with every operand at every value the
encoding admits, as a number and as bytes with anything after them. -/
def Obligations.DecodeInvertsEncode : Prop :=
  ∀ i : Instr, i.wellFormed = true →
    decodeValue (encode i).format (encode i).bits = .ok i ∧
    ∀ rest : List Byte, decodeBytes (encode i).format (encodeBytes i ++ rest) = .ok (i, rest)

/-- R91: every 32-bit value is a legal block-info word. It decodes to a well-formed instruction, by bit 1, and
no bit of it is lost. -/
def Obligations.EveryBlockInfoWordIsLegal : Prop :=
  ∀ w : Word, (decodeInfo w).wellFormed = true ∧ encode (decodeInfo w) = ⟨.info32, w.toNat⟩ ∧
    ((∃ f, decodeInfo w = .infoDiff f) ↔ field w 1 1 = 1)

/-! ### A step runs the decoded instruction -/

/-- R24: a write to `CMD` of a value that decodes to a command runs exactly that command, in the state whose
transaction has been taken from the list (the model's form, log 1). -/
def Obligations.CommandWriteRunsTheCommand : Prop :=
  ∀ (s : State) (v : Word) (rest : List Transaction) (i : Instr),
    s.seq = .idle → s.pending = .regWrite .w32 0x00#32 v :: rest → decodeCommand v = .ok i →
    step s = exec i { s with pending := rest }

/-- R158, R194: where a sequencer stands at a block or at a value in the `f3` position, a step runs exactly the
instruction those bits of SRC decode to; a value that is no sentinel is the class `IDX.VALUE` (R98), which is no
row of the table, and emits. That these elements are instructions and steps is the model's form (log 3, log 4). -/
def Obligations.StreamElementRunsAsDecoded : Prop :=
  (∀ (s : State) (q : TxdSeq), s.seq = .txd q → q.n < q.nblk →
    step s = exec (decodeInfo (s.memRead32 (q.infoOffset config))) s) ∧
  ∀ (s : State) (q : SidSeq), s.seq = .sid q → q.cur < s.idxCount.toNat →
    (∀ i, decodeIndex (s.memRead16 (2 * q.cur)) = .ok i → step s = exec i s) ∧
    ∀ r, decodeIndex (s.memRead16 (2 * q.cur)) = .error r →
      step s = .next (s.sidEmit config q (s.memRead16 (2 * q.cur)))

/-- A word of the opcode table put where the next step fetches runs as what it decodes to. This is about the
model's own `withFetchWord` (log 2, log 14). -/
def Obligations.PlacedTableWordRunsAsDecoded : Prop :=
  ∀ (s : State) (nbits w : Nat) (i : Instr), decodeTableWord nbits w = some i →
    step (s.withFetchWord nbits w) =
      exec i (if (encode i).format = .cmdw then { s with seq := .idle } else s.withFetchWord nbits w)

/-! ### Control commands -/

/-- R210: `NOP` is the all-zero command word and changes nothing. -/
def Obligations.NopChangesNothing : Prop :=
  decodeCommand 0x00000000#32 = .ok .nop ∧ ∀ s : State, exec .nop s = .next s

/-- R211: `CLR` is `0x0000000F`; it clears `STATUS` and `ERRCODE` and changes nothing else. No other instruction
clears `ERR` or a sticky flag. -/
def Obligations.ClrClearsStatusAndErrcodeOnly : Prop :=
  decodeCommand 0x0000000F#32 = .ok .clr ∧
  (∀ s : State, exec .clr s = .next { s with status := 0x00000000#32, errcode := 0x00000000#32 }) ∧
  ∀ (i : Instr) (s t : State) (f : StatusFlag), f ≠ .done → exec i s = .next t → s.hasFlag f = true →
    t.hasFlag f = false → i = .clr

/-- R82, R212: a write to `CMD` of any value with `c[31:8] ≠ 0`, or with `c[7:0]` none of the five codes, clears
`DONE`, sets `ERR`, puts 6 into `ERRCODE` and changes nothing else; the engine goes on. That the write is taken from
a list of transactions is the model's form (log 1). -/
def Obligations.IllegalCommandIsReported : Prop :=
  ∀ (s : State) (c : Word) (rest : List Transaction),
    s.seq = .idle → s.pending = .regWrite .w32 0x00#32 c :: rest →
    (field c 8 24 ≠ 0 ∨ field c 0 8 ∉ [0x00, 0x01, 0x02, 0x03, 0x0F]) →
    step s = .next { faulted s 6#32 with pending := rest }

/-! ### BCC and DECBLK -/

/-- R135, with R121 to R129 restated in `Reference`: `DECBLK` is `0x00000001`; it completes for any operand values,
writes the sixteen colours, sets `DONE`, sets `DIFFOOR` exactly if a differential sum is out of range, and changes
nothing else. -/
def Obligations.DecblkDecodesTheOperandBlock : Prop :=
  decodeCommand 0x00000001#32 = .ok .decblk ∧ ∀ s : State, ∃ t : State, exec .decblk s = .next t ∧
    t = { s with
          col := t.col
          status := s.status ||| if outOfRange s.blkInfo then 0x11#32 else 0x01#32 } ∧
    ∀ i : Fin 16, ((t.col[i]).toNat : Int) = rgbNumber s.blkInfo s.blkPix i

/-- R122: the base colours of every individual-mode block, by the fields of R86. -/
def Obligations.IndividualModeBaseColours : Prop :=
  ∀ w : Word, field w 1 1 = 0 →
    (blockOfWord w).base1 = ⟨17 * field w 28 4, 17 * field w 20 4, 17 * field w 12 4⟩ ∧
    (blockOfWord w).base2 = ⟨17 * field w 24 4, 17 * field w 16 4, 17 * field w 8 4⟩ ∧
    (blockOfWord w).oor = false

/-- R123: the base colours of every differential-mode block, by the fields of R87, the delta added before the
expansion and neither wrapped nor clamped; R125: `oor` exactly if a sum leaves 0..31. -/
def Obligations.DifferentialModeBaseColours : Prop :=
  ∀ w : Word, field w 1 1 = 1 →
    (blockOfWord w).base1 =
      ⟨expand5 (field w 27 5), expand5 (field w 19 5), expand5 (field w 11 5)⟩ ∧
    (blockOfWord w).base2 =
      ⟨expand5 (field w 27 5 + signed3 (field w 24 3)), expand5 (field w 19 5 + signed3 (field w 16 3)),
        expand5 (field w 11 5 + signed3 (field w 8 3))⟩ ∧
    ((blockOfWord w).oor = true ↔ ∃ c < 3, channelSum w c < 0 ∨ 31 < channelSum w c)

/-- R124: the closed forms of both expansions; inside 0..31 `exp5` runs from 0 to 255 and is strictly increasing;
the table over -4..34 is that of the rule. -/
def Obligations.ExpansionsHaveTheirClosedForms : Prop :=
  (∀ v : Int, exp4 v = 17 * v) ∧ (∀ v : Int, exp5 v = 8 * v + v / 4) ∧ exp5 0 = 0 ∧ exp5 31 = 255 ∧
  (∀ v w : Int, v < w → exp5 v < exp5 w) ∧
  (List.range 39).map (fun k => exp5 ((k : Int) - 4)) =
    [-33, -25, -17, -9, 0, 8, 16, 24, 33, 41, 49, 57, 66, 74, 82, 90, 99, 107, 115, 123, 132, 140, 148, 156,
     165, 173, 181, 189, 198, 206, 214, 222, 231, 239, 247, 255, 264, 272, 280]

/-- R134: for every position of every block the modifier is one of the four values of the row that the governing
sub-block's selector chooses, and which of the four depends on the pixel index alone. -/
def Obligations.ModifierIsOneOfTheRowsFour : Prop :=
  ∀ (w pix : Word) (i : Nat), i < 16 →
    let k := blockOfWord w
    let base := if second w i then k.base2 else k.base1
    let sel := field w (if second w i then 2 else 5) 3
    ∃ m ∈ [tableEntry sel 0, tableEntry sel 1, tableEntry sel 2, tableEntry sel 3],
      m = tableEntry sel (2 * field pix (i + 16) 1 + field pix i 1) ∧ blockColour k pix i = shade base m

/-- R133: with `flip = 0` sub-block 1 is columns 0 and 1 and sub-block 2 columns 2 and 3; with `flip = 1` sub-block 1
is rows 0 and 1 and sub-block 2 rows 2 and 3, position `i` being column `i div 4`, row `i mod 4`. -/
def Obligations.SubBlocksAreHalvesOfTheTile : Prop :=
  ∀ i < 16, (inSubBlock1 false i = true ↔ i / 4 ∈ [0, 1]) ∧ (inSubBlock1 false i = false ↔ i / 4 ∈ [2, 3]) ∧
    (inSubBlock1 true i = true ↔ i % 4 ∈ [0, 1]) ∧ (inSubBlock1 true i = false ↔ i % 4 ∈ [2, 3])

/-- R30, R31: `BLK_CTL`, `BLK_ALPHA_LO` and `BLK_ALPHA_HI` have no effect on any result of any instruction, and no
instruction writes them. -/
def Obligations.AlphaOperandsHaveNoEffect : Prop :=
  ∀ (i : Instr) (s t : State) (a b c : Word), exec i s = .next t →
    t.blkCtl = s.blkCtl ∧ t.blkAlphaLo = s.blkAlphaLo ∧ t.blkAlphaHi = s.blkAlphaHi ∧
    exec i { s with blkCtl := a, blkAlphaLo := b, blkAlphaHi := c } =
      .next { t with blkCtl := a, blkAlphaLo := b, blkAlphaHi := c }

/-- A block-info word in individual mode, every field value (R86, R122; log 3): where TXD has a block to decode it
writes that block's sixteen pixels, advances the block counter and the draw counter, which is the model's own (log
7), and changes nothing else; elsewhere it writes `COL` from `BLK_PIX` and changes nothing else. -/
def Obligations.IndividualInfoWordDecodesItsBlock : Prop :=
  ∀ (f : IndInfo) (s : State), f.wellFormed = true →
    let w : Word := BitVec.ofNat 32 (encodeInd f)
    (∀ q, s.seq = .txd q → q.Legal s.srcLen.toNat → q.n < q.nblk →
      ∃ t, exec (.infoInd f) s = .next t ∧
        t = { s with pix := t.pix, seq := .txd { q with n := q.n + 1 }, draws := s.draws + 1 } ∧
        (∀ i < 16, t.pix.read (place q.w q.h q.n i) =
          some (rgbaWord w (s.memRead32 (q.pbase + q.n * q.bpb + (q.bpb - 8))) i)) ∧
        ∀ p, (∀ i < 16, p ≠ place q.w q.h q.n i) → t.pix.read p = s.pix.read p) ∧
    ((∀ q, s.seq = .txd q → q.nblk ≤ q.n) →
      ∃ t, exec (.infoInd f) s = .next t ∧ t = { s with col := t.col } ∧
        ∀ i : Fin 16, ((t.col[i]).toNat : Int) = rgbNumber w s.blkPix i)

/-- The same for a block-info word in differential mode (R87, R123; log 3, log 7), which may also set `DIFFOOR`
(R125). -/
def Obligations.DifferentialInfoWordDecodesItsBlock : Prop :=
  ∀ (f : DiffInfo) (s : State), f.wellFormed = true →
    let w : Word := BitVec.ofNat 32 (encodeDiff f)
    let status : Word := s.status ||| if outOfRange w then 0x10#32 else 0x00#32
    (∀ q, s.seq = .txd q → q.Legal s.srcLen.toNat → q.n < q.nblk →
      ∃ t, exec (.infoDiff f) s = .next t ∧
        t = { s with
              pix := t.pix
              seq := .txd { q with n := q.n + 1 }
              status := status
              draws := s.draws + 1 } ∧
        (∀ i < 16, t.pix.read (place q.w q.h q.n i) =
          some (rgbaWord w (s.memRead32 (q.pbase + q.n * q.bpb + (q.bpb - 8))) i)) ∧
        ∀ p, (∀ i < 16, p ≠ place q.w q.h q.n i) → t.pix.read p = s.pix.read p) ∧
    ((∀ q, s.seq = .txd q → q.nblk ≤ q.n) →
      ∃ t, exec (.infoDiff f) s = .next t ∧ t = { s with col := t.col, status := status } ∧
        ∀ i : Fin 16, ((t.col[i]).toNat : Int) = rgbNumber w s.blkPix i)

/-! ### SRC reads -/

/-- R62: the byte at the lowest offset is the least significant, for both widths. -/
def Obligations.MemReadIsLittleEndian : Prop :=
  ∀ (s : State) (off : Nat),
    (s.memRead32 off).toNat = (s.srcByte off).toNat + 2 ^ 8 * (s.srcByte (off + 1)).toNat +
      2 ^ 16 * (s.srcByte (off + 2)).toNat + 2 ^ 24 * (s.srcByte (off + 3)).toNat ∧
    (s.memRead16 off).toNat = (s.srcByte off).toNat + 256 * (s.srcByte (off + 1)).toNat ∧
    (s.memRead32 off).extractLsb' 0 8 = s.srcByte off ∧ (s.memRead32 off).extractLsb' 24 8 = s.srcByte (off + 3)

/-! ### DECTEX -/

/-- R153 check 1, R151, R224 first row: with fewer than 16 bytes `DECTEX` reports `TruncatedInput`, leaves the four
latches, and changes nothing but `STATUS`, `ERRCODE` and `TEX_BLOCKS = 0`. -/
def Obligations.DectexWithoutAHeaderIsTruncated : Prop :=
  ∀ s : State, s.srcLen.toNat < 16 →
    exec .dectex s = .next { faulted s 3#32 with texBlocks := 0, seq := .idle }

/-- R165: an unrecognised pixel-type code, whatever else is wrong with the container, gives
`UnsupportedPixelFormat`; the latches hold the header, PIX is not written at all, `TEX_BLOCKS` stays 0. The draw
counter, which the header's read advances, is the model's own (log 7). -/
def Obligations.DectexUnsupportedPixelType : Prop :=
  ∀ s : State, 16 ≤ s.srcLen.toNat → ¬TypeKnown s →
    exec .dectex s = .next (faulted (latched s) 1#32)

/-- R154: a width or height that is 0 or no multiple of 8 gives `BadGeometry`, whatever the payload; nothing is
written to PIX and `TEX_BLOCKS` stays 0. A good size is at most 8184 each way and does not raise it. The draw
counter, which the header's read advances, is the model's own (log 7). -/
def Obligations.DectexBadGeometry : Prop :=
  ∀ s : State,
    (16 ≤ s.srcLen.toNat → TypeKnown s → ¬SizeGood s →
      exec .dectex s = .next (faulted (latched s) 5#32)) ∧
    (SizeGood s → width s ≤ 8184 ∧ height s ≤ 8184 ∧
      ∃ t, exec .dectex s = .next t ∧ (t.errcode = 5#32 → s.errcode = 5#32))

/-- R166: a short payload gives `TruncatedInput`; every entry below `W * H` becomes unspecified, so that a read of it
is a free value whatever the draw; every entry from `W * H` on keeps its value; nothing else changes and `DIFFOOR`
is not set. That a forgotten entry reads as a free value of the draw (log 6) and that the draw counter advances (log
7) are the model's form. -/
def Obligations.DectexShortPayloadForgetsTheImage : Prop :=
  ∀ s : State, 16 ≤ s.srcLen.toNat → TypeKnown s → SizeGood s → ¬Complete s →
    ∃ t, exec .dectex s = .next t ∧ t = { faulted (latched s) 3#32 with pix := t.pix } ∧
      (∀ p < width s * height s, ∀ d : Nat, ({ t with draws := d }).pixEntry p = Config.freePix d p) ∧
      ∀ p, width s * height s ≤ p → t.pix.read p = s.pix.read p

/-- R153: the first check that fails, in the order of the rule, ends the command with its code; `DONE = 1` exactly
if none fails. -/
def Obligations.DectexReportsTheFirstFailingCheck : Prop :=
  ∀ s : State, ∃ t, exec .dectex s = .next t ∧
    (s.srcLen.toNat < 16 → t.errcode = 3#32 ∧ t.hasFlag .done = false) ∧
    (16 ≤ s.srcLen.toNat →
      (¬TypeKnown s → t.errcode = 1#32 ∧ t.hasFlag .done = false) ∧
      (TypeKnown s →
        (¬SizeGood s → t.errcode = 5#32 ∧ t.hasFlag .done = false) ∧
        (SizeGood s →
          (¬Complete s → t.errcode = 3#32 ∧ t.hasFlag .done = false) ∧
          (Complete s → t.errcode = s.errcode ∧ t.hasFlag .err = s.hasFlag .err ∧ t.hasFlag .done = true))))

/-- R168, R169: a `DECTEX` that passes all four checks completes; `DONE` is set, `DIFFOOR` is set exactly if some
block's sum is out of range, `TEX_BLOCKS = NBLK`, the latches hold the header, and nothing but these and PIX
changes, but for the draw counter, which is the model's own (log 7). -/
def Obligations.DectexEndState : Prop :=
  ∀ s : State, ChecksPass s → ∃ t, exec .dectex s = .next t ∧
    t = { latched s with
          texBlocks := BitVec.ofNat 32 (nblk s)
          status := t.status
          pix := t.pix
          draws := s.draws + 1 + nblk s } ∧
    ((∃ n < nblk s, outOfRange (infoWord s n) = true) → t.status = s.status ||| 0x11#32) ∧
    ((∀ n < nblk s, outOfRange (infoWord s n) = false) → t.status = s.status ||| 0x01#32)

/-- R150, R161, R163, R164: the image. Position `i` of block `n` is the colour that block's two words give, at the
entry the tiled order gives, with alpha `0xFF`; every entry from `W * H` on is as before. What an unwritten byte of
a block reads as is a free value of its draw (log 5, log 7). -/
def Obligations.DectexWritesTheImage : Prop :=
  ∀ s : State, ChecksPass s → ∃ t, exec .dectex s = .next t ∧
    (∀ n < nblk s, ∀ i < 16,
      t.pix.read (place (width s) (height s) n i) = some (rgbaWord (infoWord s n) (pixWord s n) i)) ∧
    ∀ p, width s * height s ≤ p → t.pix.read p = s.pix.read p

/-- R162: for a `DECTEX` that passes all four checks, `(n, i) ↦ p` is a bijection onto the entries below `W * H`, and
after the command each of those holds a written word and no other entry has changed. -/
def Obligations.EveryPixelIsPlacedExactlyOnce : Prop :=
  ∀ s : State, ChecksPass s →
    Set.BijOn (fun ni : Nat × Nat =>
        ({ TxdSeq.start config (s.memRead32 8) (s.memRead32 12) with n := ni.1 } : TxdSeq).entry ni.2)
      { ni | ni.1 < nblk s ∧ ni.2 < 16 } { p | p < width s * height s } ∧
    ∃ t, exec .dectex s = .next t ∧ (∀ p < width s * height s, t.pix.read p ≠ none) ∧
      ∀ p, width s * height s ≤ p → t.pix.read p = s.pix.read p

/-- R130, R152, R156, R157, R167: of a container that passes the checks, `DECTEX` uses the geometry word, the
pixel-type byte and the colour bytes of its blocks, and nothing else. With any other magic, flags, unused format
bits, mipmap offsets, alpha bytes, bytes after the last block and any larger `SRC_LEN`, every result but the three
latches of those header words is the same. -/
def Obligations.DectexUsesNothingElseOfSrc : Prop :=
  ∀ (s t : State) (m : Memory Byte) (len : Word), ChecksPass s → pbase s + nblk s * bpb s ≤ len.toNat →
    (∀ a, (8 ≤ a ∧ a < 12) ∨ a = 13 ∨ (∃ n < nblk s, colourBytes s n ≤ a ∧ a < colourBytes s n + 8) →
      m.read a = s.src.read a) →
    exec .dectex s = .next t →
    exec .dectex { s with src := m, srcLen := len } =
      .next { t with
              src := m
              srcLen := len
              texMagic := ({ s with src := m }).memRead32 0
              texFlags := ({ s with src := m }).memRead32 4
              texFmt := ({ s with src := m }).memRead32 12 }

/-! ### DECSTRIP -/

/-- R182: a stream longer than `SRC_LEN`, compared in the integers, gives `TruncatedInput` before any value is read:
nothing but `STATUS`, `ERRCODE` and `TRI_COUNT = 0` changes. -/
def Obligations.DecstripBeyondSrcLenIsTruncated : Prop :=
  ∀ s : State, s.srcLen.toNat < 2 * s.idxCount.toNat →
    exec .decstrip s = .next (faulted (stripStarted s) 3#32)

/-- R190: with fewer than two values at the start `DECSTRIP` ends without a fault, with `DONE` and `SHORTPRIME`, and
with no triangle. The draw counter is the model's own (log 7). -/
def Obligations.DecstripTooShortToPrime : Prop :=
  ∀ s : State, 2 * s.idxCount.toNat ≤ s.srcLen.toNat → s.idxCount.toNat < 2 →
    exec .decstrip s = .next { stripStarted s with status := s.status ||| 0x41#32, draws := s.draws + 1 }

/-- R180 to R190, R193: the triangles. There is a list of stream values, equal to the value in SRC wherever the host
wrote it (elsewhere a free value), such that TRI holds exactly the triangles of that stream in order, rebased;
`TRI_COUNT` counts them; `IDXNEG` and `SHORTPRIME` are set exactly as the stream demands; and nothing else
changes but the draw counter. The free value and the counter are the model's form (log 5, log 7). -/
def Obligations.DecstripEmitsTheStripTriangles : Prop :=
  ∀ s : State, 2 * s.idxCount.toNat ≤ s.srcLen.toNat →
    ∃ (vals : List Half) (t : State),
      vals.length = s.idxCount.toNat ∧
      (∀ k, (h : k < vals.length) → ∀ b0 b1 : Byte, s.src.read (2 * k) = some b0 →
        s.src.read (2 * k + 1) = some b1 → (vals[k]).toNat = b0.toNat + 256 * b1.toNat) ∧
      exec .decstrip s = .next t ∧
      (let out := strip (vals.map BitVec.toNat)
       t = { stripStarted s with
             triCount := BitVec.ofNat 32 out.1.length
             tri := t.tri
             status := s.status ||| 0x01#32 ||| (if someBelow s.baseIndex out.1 then 0x20#32 else 0x00#32) |||
               (if out.2 then 0x40#32 else 0x00#32)
             draws := t.draws } ∧
       (∀ j, (h : j < out.1.length) →
         t.tri.read (3 * j) = some (rebased s.baseIndex (out.1[j]).1) ∧
         t.tri.read (3 * j + 1) = some (rebased s.baseIndex (out.1[j]).2.1) ∧
         t.tri.read (3 * j + 2) = some (rebased s.baseIndex (out.1[j]).2.2)) ∧
       ∀ k, 3 * out.1.length ≤ k → t.tri.read k = s.tri.read k)

/-- R192: entries `TRI_COUNT` and above are not written and keep their values; every `DECSTRIP` starts again at entry
0, so that the entries below `TRI_COUNT` are written. R191: there are at most `N - 2` triangles. -/
def Obligations.DecstripLeavesLaterEntries : Prop :=
  ∀ s : State, ∃ t, exec .decstrip s = .next t ∧
    t.triCount.toNat ≤ s.idxCount.toNat - 2 ∧
    (∀ j < t.triCount.toNat, ∀ l : TriLane, t.tri.read (3 * j + l.index) ≠ none) ∧
    ∀ k, 3 * t.triCount.toNat ≤ k → t.tri.read k = s.tri.read k

/-- R70, R182: `DECSTRIP` reads no byte at `2 * IDX_COUNT` or above, and a larger `SRC_LEN` makes no difference. -/
def Obligations.DecstripReadsOnlyItsStream : Prop :=
  ∀ (s t : State) (m : Memory Byte) (len : Word), 2 * s.idxCount.toNat ≤ s.srcLen.toNat →
    2 * s.idxCount.toNat ≤ len.toNat → (∀ a < 2 * s.idxCount.toNat, m.read a = s.src.read a) →
    exec .decstrip s = .next t →
    exec .decstrip { s with src := m, srcLen := len } = .next { t with src := m, srcLen := len }

/-- R186 to R189: a value read as `f3` that is not the sentinel, also one that makes a degenerate triangle, emits
exactly one triangle, rebased, toggles `reverse` and slides the window. That this is a step of its own, and the draw
counter, are the model's form (log 4, log 7). -/
def Obligations.StripValueEmitsOneTriangle : Prop :=
  ∀ (s : State) (q : SidSeq), s.seq = .sid q → q.cur < s.idxCount.toNat →
    s.memRead16 (2 * q.cur) ≠ 0xFFFF#16 →
    let f3 := s.memRead16 (2 * q.cur)
    let v := if q.reverse then (q.f1.toNat, q.f2.toNat, f3.toNat) else (q.f1.toNat, f3.toNat, q.f2.toNat)
    ∃ t, step s = .next t ∧
      t = { s with
            tri := t.tri
            seq := .sid { f1 := q.f2, f2 := f3, reverse := !q.reverse, cur := q.cur + 1, nt := q.nt + 1 }
            status := s.status ||| if someBelow s.baseIndex [v] then 0x20#32 else 0x00#32
            draws := s.draws + 1 } ∧
      t.triEntry q.nt = ⟨rebased s.baseIndex v.1, rebased s.baseIndex v.2.1, rebased s.baseIndex v.2.2⟩ ∧
      ∀ k, k / 3 ≠ q.nt → t.tri.read k = s.tri.read k

/-- R184, R185, R190: the sentinel in the `f3` position consumes the next two values as the new window whatever they
are, resets `reverse` and emits nothing; with fewer than two left the command ends with `SHORTPRIME`, keeping its
triangles. Where SID reads no `f3` the class does not exist (R98) and the model stops by name (log 3); the draw
counter is the model's own (log 7). -/
def Obligations.RestartPrimesANewWindow : Prop :=
  ∀ s : State,
    (∀ q, s.seq = .sid q → q.cur + 3 ≤ s.idxCount.toNat →
      exec .idxRestart s = .next { s with
        seq := .sid
          { f1 := s.memRead16 (2 * (q.cur + 1))
            f2 := s.memRead16 (2 * (q.cur + 2))
            reverse := true
            cur := q.cur + 3
            nt := q.nt }
        draws := s.draws + 1 }) ∧
    (∀ q, s.seq = .sid q → q.cur < s.idxCount.toNat → s.idxCount.toNat < q.cur + 3 →
      exec .idxRestart s = .next { s with
        seq := .idle
        triCount := BitVec.ofNat 32 q.nt
        status := s.status ||| 0x41#32
        draws := s.draws + 1 }) ∧
    ((∀ q, s.seq = .sid q → s.idxCount.toNat ≤ q.cur) → exec .idxRestart s = .refused .noF3Position)

/-! ### The commands as runs of small steps -/

/-- R194: from the primed window, the transition system's small steps reach exactly the state the atomic `DECSTRIP`
gives, in at most `N` steps, none of them a step of the host. That these are steps of the machine is the model's form
(log 4). -/
def Obligations.StripStepsReachTheAtomicResult : Prop :=
  ∀ s : State, 2 * s.idxCount.toNat ≤ s.srcLen.toNat → 2 ≤ s.idxCount.toNat →
    ∃ (t : State) (k : Nat), k ≤ s.idxCount.toNat ∧ exec .decstrip s = .next t ∧ t.pending = s.pending ∧
      Sys2Proof.core.run k
        { stripStarted s with
          seq := .sid { f1 := s.memRead16 0, f2 := s.memRead16 2, reverse := true, cur := 2, nt := 0 }
          draws := s.draws + 1 } = .next t

/-- R67, R157: from the latched header, one step for each block and one for the end reach exactly the state the
atomic `DECTEX` gives. That these are steps of the machine is the model's form (log 4). -/
def Obligations.TextureStepsReachTheAtomicResult : Prop :=
  ∀ s : State, ChecksPass s →
    ∃ t : State, exec .dectex s = .next t ∧
      Sys2Proof.core.run (nblk s + 1)
        { latched s with
          status := s.status &&& ~~~1#32
          seq := .txd { n := 0, w := width s, h := height s, bpb := bpb s, pbase := pbase s, s := width s / 8 } } =
        .next t

/-! ### Rules of the whole machine -/

/-- R68: every command is idempotent, run twice from the same registers and memories. The bytes of SRC below
`SRC_LEN` are all written, since an unwritten one has no value to be the same (R44). The draw counter is the
model's own (log 7). -/
def Obligations.CommandsAreIdempotent : Prop :=
  ∀ i ∈ [Instr.nop, .decblk, .dectex, .decstrip, .clr], ∀ s : State, Inv s →
    (∀ a < s.srcLen.toNat, s.src.read a ≠ none) →
    ∃ t u, exec i s = .next t ∧ exec i t = .next u ∧ { u with draws := t.draws } = t

/-- R50, R260, R263: with no command running and only transactions of the interface to come, a step always gives a
next state, in which again no command is running and only the rest of them are to come. The list is the model's form
(log 1). -/
def Obligations.InterfaceTransactionsAlwaysComplete : Prop :=
  ∀ s : State, s.Quiescent → (∀ x ∈ s.pending, x.inInterface = true) →
    ∃ t, step s = .next t ∧ t.Quiescent ∧ t.pending = s.pending.tail

/-- R263: a write to `CMD` of any value ends in one of three ways: `NOP` and `CLR` as their rules say; a decode
command without fault, with `DONE = 1` and `ERR`, `ERRCODE` as before; a fault, with `DONE = 0`, `ERR = 1` and a code
of those that are raised. That the write is taken from a list is the model's form (log 1). -/
def Obligations.EveryCommandWriteEndsOneOfThreeWays : Prop :=
  ∀ (s : State) (v : Word) (rest : List Transaction), s.seq = .idle →
    s.pending = .regWrite .w32 0x00#32 v :: rest →
    ∃ t, step s = .next t ∧ t.seq = .idle ∧ t.pending = rest ∧
      (v = 0x00#32 → t = { s with pending := rest }) ∧
      (v = 0x0F#32 → t = { s with pending := rest, status := 0, errcode := 0 }) ∧
      (v ≠ 0x00#32 → v ≠ 0x0F#32 →
        (v ∈ [0x01#32, 0x02#32, 0x03#32] ∧ t.hasFlag .done = true ∧ t.hasFlag .err = s.hasFlag .err ∧
          t.errcode = s.errcode) ∨
        (v ≠ 0x01#32 ∧ t.hasFlag .done = false ∧ t.hasFlag .err = true ∧
          t.errcode ∈ [1#32, 3#32, 5#32, 6#32]))

/-- R21, R252: the results of `DECTEX` and `DECSTRIP` do not depend on anything a sequencer held before them. -/
def Obligations.SequencersStartFromScratch : Prop :=
  ∀ (s : State) (x : Sequencer),
    exec .dectex { s with seq := x } = exec .dectex s ∧ exec .decstrip { s with seq := x } = exec .decstrip s

/-- R28, R29, R30, R31, R37, R38, R44, R65: no instruction writes SRC or any of the eight registers the host writes;
and each unit writes its own results only: TRI and `TRI_COUNT` are SID's, PIX and the `TEX_*` registers TXD's, `COL`
BCC's. -/
def Obligations.InstructionsWriteOnlyTheirResults : Prop :=
  ∀ (i : Instr) (s t : State), exec i s = .next t →
    t.src = s.src ∧ t.srcLen = s.srcLen ∧ t.blkInfo = s.blkInfo ∧ t.blkPix = s.blkPix ∧
    t.blkCtl = s.blkCtl ∧ t.blkAlphaLo = s.blkAlphaLo ∧ t.blkAlphaHi = s.blkAlphaHi ∧
    t.idxCount = s.idxCount ∧ t.baseIndex = s.baseIndex ∧ t.pending = s.pending ∧ t.readLog = s.readLog ∧
    (i ≠ .decstrip → t.tri = s.tri ∧ (i ≠ .idxRestart → t.triCount = s.triCount)) ∧
    (i ∉ [Instr.decblk] ∧ (∀ f, i ≠ .infoInd f) ∧ (∀ f, i ≠ .infoDiff f) → t.col = s.col) ∧
    (i ≠ .dectex → t.texMagic = s.texMagic ∧ t.texFlags = s.texFlags ∧ t.texGeom = s.texGeom ∧
      t.texFmt = s.texFmt ∧ t.texBlocks = s.texBlocks ∧
      ((∀ f, i ≠ .infoInd f) → (∀ f, i ≠ .infoDiff f) → t.pix = s.pix))

/-- R25: the three sticky flags and `ERR` are cleared by no instruction but `CLR`, and each is set only by the
instructions of its row. -/
def Obligations.StickyFlagsAreOnlyGained : Prop :=
  ∀ (i : Instr) (s t : State), i ≠ .clr → exec i s = .next t →
    (∀ f ∈ [StatusFlag.err, .diffoor, .idxneg, .shortprime], s.hasFlag f = true → t.hasFlag f = true) ∧
    (t.hasFlag .idxneg = true → s.hasFlag .idxneg = true ∨ i = .decstrip) ∧
    (t.hasFlag .shortprime = true → s.hasFlag .shortprime = true ∨ i = .decstrip ∨ i = .idxRestart) ∧
    (t.hasFlag .err = true → s.hasFlag .err = true ∨ i = .dectex ∨ i = .decstrip) ∧
    (t.hasFlag .diffoor = true → s.hasFlag .diffoor = true ∨ i = .decblk ∨ i = .dectex ∨
      ∃ f, i = .infoDiff f)

/-- R42, R227: no instruction reads `STATUS` or `ERRCODE` as an input. With other values there, every other result is
the same; `ERR = 1` blocks nothing. -/
def Obligations.StatusIsNoInput : Prop :=
  ∀ (i : Instr) (s t : State) (x y : Word), exec i s = .next t →
    ∃ u, exec i { s with status := x, errcode := y } = .next u ∧
      { u with status := t.status, errcode := t.errcode } = t

/-- R27, R229: a fault met while `ERR` is already 1 keeps `ERR` and replaces the older code by that of the new fault,
which is the first failing check's (R153, R182) or `IllegalCommand`'s (R212); a command that meets none leaves the
code. That a `CMD` write is taken from a list is the model's form (log 1). -/
def Obligations.NewerFaultReplacesTheCode : Prop :=
  ∀ s : State, s.hasFlag .err = true →
    (∃ t, exec .dectex s = .next t ∧ t.hasFlag .err = true ∧
      (s.srcLen.toNat < 16 → t.errcode = 3#32 ∧ t.hasFlag .done = false) ∧
      (16 ≤ s.srcLen.toNat → ¬TypeKnown s → t.errcode = 1#32 ∧ t.hasFlag .done = false) ∧
      (16 ≤ s.srcLen.toNat → TypeKnown s → ¬SizeGood s → t.errcode = 5#32 ∧ t.hasFlag .done = false) ∧
      (16 ≤ s.srcLen.toNat → TypeKnown s → SizeGood s → ¬Complete s →
        t.errcode = 3#32 ∧ t.hasFlag .done = false) ∧
      (ChecksPass s → t.errcode = s.errcode ∧ t.hasFlag .done = true)) ∧
    (∃ t, exec .decstrip s = .next t ∧ t.hasFlag .err = true ∧
      (s.srcLen.toNat < 2 * s.idxCount.toNat → t.errcode = 3#32 ∧ t.hasFlag .done = false) ∧
      (2 * s.idxCount.toNat ≤ s.srcLen.toNat → t.errcode = s.errcode ∧ t.hasFlag .done = true)) ∧
    (∃ t, exec .decblk s = .next t ∧ t.hasFlag .err = true ∧ t.hasFlag .done = true ∧ t.errcode = s.errcode) ∧
    ∀ (c : Word) (rest : List Transaction), s.seq = .idle → s.pending = .regWrite .w32 0x00#32 c :: rest →
      (field c 8 24 ≠ 0 ∨ field c 0 8 ∉ [0x00, 0x01, 0x02, 0x03, 0x0F]) →
      ∃ t, step s = .next t ∧ t.hasFlag .err = true ∧ t.errcode = 6#32 ∧ t.hasFlag .done = false

/-! ### The host's transactions -/

/-- R23: reads and writes of the REG space. `0x04`, `0x08`, `0x24` to `0x34` and `0x40` to `0xBC` hold the read-only
registers and the unmapped offsets (R22). The list a transaction is taken from, the list a read's result goes to and
the draw counter are the model's own (log 1, log 7). -/
def Obligations.RegisterAccessRules : Prop :=
  ∀ (s : State) (off v : Word) (width : BusWidth) (rest : List Transaction), s.seq = .idle →
    (width = .w32 → off.toNat % 4 = 0 → off.toNat ≤ 0xBC →
      (s.pending = .regRead width off :: rest →
        ∃ x : Word, step s =
            .next { s with pending := rest, readLog := .word x :: s.readLog, draws := s.draws + 1 } ∧
          (off.toNat = 0x00 ∨ (0x44 ≤ off.toNat ∧ off.toNat ≤ 0x7C) → x = 0) ∧
          ∀ r : Reg, r.offset = off.toNat → x = s.readReg r) ∧
      (s.pending = .regWrite width off v :: rest →
        (off.toNat = 0x04 ∨ off.toNat = 0x08 ∨ (0x24 ≤ off.toNat ∧ off.toNat ≤ 0x34) ∨ 0x40 ≤ off.toNat) →
        step s = .next { s with pending := rest })) ∧
    ((width ≠ .w32 ∨ off.toNat % 4 ≠ 0 ∨ 0xBC < off.toNat) →
      (s.pending = .regRead width off :: rest ∨ s.pending = .regWrite width off v :: rest) →
      ∃ r, step s = .refused r)

/-- R28, R29, R31, R37, R38: a read-write register holds all 32 bits of the last write, `BLK_CTL` bit 0 of it (R30);
no other register, no memory and no sequencer changes. That the write is taken from a list is the model's form
(log 1). -/
def Obligations.ReadWriteRegistersHoldTheLastWrite : Prop :=
  ∀ (s : State) (r : Reg) (v : Word) (rest : List Transaction), s.seq = .idle →
    r ∈ [Reg.srcLen, .blkInfo, .blkPix, .blkCtl, .blkAlphaLo, .blkAlphaHi, .idxCount, .baseIndex] →
    s.pending = .regWrite .w32 (BitVec.ofNat 32 r.offset) v :: rest →
    ∃ t, step s = .next t ∧ t.readReg r = (if r = .blkCtl then (if v.getLsbD 0 then 1 else 0) else v) ∧
      (∀ r' : Reg, r' ≠ r → t.readReg r' = s.readReg r') ∧
      t.src = s.src ∧ t.pix = s.pix ∧ t.tri = s.tri ∧ t.seq = .idle ∧ t.pending = rest ∧
      t.readLog = s.readLog ∧ t.draws = s.draws

/-- R43, R44, R63: SRC holds the bytes the host wrote, from the offset upwards, and every other byte as before. That
the write is taken from a list is the model's form (log 1). -/
def Obligations.SrcHoldsWhatTheHostWrote : Prop :=
  ∀ (s : State) (off : Word) (bs : List Byte) (rest : List Transaction), s.seq = .idle →
    s.pending = .srcWrite off bs :: rest → off.toNat + bs.length ≤ 2 ^ 32 →
    ∃ t, step s = .next t ∧ t = { s with src := t.src, pending := rest } ∧
      ∀ a, t.src.read a =
        if off.toNat ≤ a ∧ a < off.toNat + bs.length then bs[a - off.toNat]? else s.src.read a

/-- R43: SRC has no offset above `2^32 - 1`: an access that reaches one stops, by the model's own fault (log 15;
the transaction is taken from a list, log 1). -/
def Obligations.SrcAccessOutsideTheSpaceFaults : Prop :=
  ∀ (s : State) (off : Word) (bs : List Byte) (n : Nat) (rest : List Transaction), s.seq = .idle →
    (s.pending = .srcWrite off bs :: rest → 2 ^ 32 < off.toNat + bs.length →
      step s = .fault .noSuchSrcOffset) ∧
    (s.pending = .srcRead off n :: rest → 2 ^ 32 < off.toNat + n → step s = .fault .noSuchSrcOffset)

/-- R43, R45, R46, R63: a PIX entry, a TRI entry and one word of a TRI entry hold what the host wrote, and every
other word as before. That the writes are taken from a list is the model's form (log 1, log 16). -/
def Obligations.PixAndTriHoldWhatTheHostWrote : Prop :=
  ∀ (s : State) (p : BitVec 26) (t : Word) (l : TriLane) (v : Word) (e : Tri3) (rest : List Transaction),
    s.seq = .idle →
    (s.pending = .pixWrite p v :: rest →
      ∃ u, step s = .next u ∧ u = { s with pix := u.pix, pending := rest } ∧
        ∀ k, u.pix.read k = if k = p.toNat then some v else s.pix.read k) ∧
    (s.pending = .triWrite t e :: rest →
      ∃ u, step s = .next u ∧ u = { s with tri := u.tri, pending := rest } ∧ u.triEntry t.toNat = e ∧
        ∀ k, k / 3 ≠ t.toNat → u.tri.read k = s.tri.read k) ∧
    (s.pending = .triWriteWord t l v :: rest →
      ∃ u, step s = .next u ∧ u = { s with tri := u.tri, pending := rest } ∧
        ∀ k, u.tri.read k = if k = 3 * t.toNat + l.index then some v else s.tri.read k)

/-- R43, R47, R100: a read returns what the entry holds, or, where nothing has written it, a free value of this
draw; it changes no memory and no register. The lists, the free values and the draw counter are the model's own (log
1, log 5 to log 7). -/
def Obligations.HostReadsReturnWhatIsHeld : Prop :=
  ∀ (s : State) (p : BitVec 26) (t off : Word) (l : TriLane) (n : Nat) (rest : List Transaction),
    s.seq = .idle →
    (s.pending = .pixRead p :: rest →
      step s = .next { s with
        pending := rest
        draws := s.draws + 1
        readLog := .word ((s.pix.read p.toNat).getD (Config.freePix s.draws p.toNat)) :: s.readLog }) ∧
    (s.pending = .triRead t :: rest →
      step s = .next { s with
        pending := rest, draws := s.draws + 1, readLog := .tri (s.triEntry t.toNat) :: s.readLog }) ∧
    (s.pending = .triReadWord t l :: rest →
      step s = .next { s with
        pending := rest, draws := s.draws + 1, readLog := .word (s.triWord t.toNat l) :: s.readLog }) ∧
    (s.pending = .srcRead off n :: rest → off.toNat + n ≤ 2 ^ 32 →
      step s = .next { s with
        pending := rest
        draws := s.draws + 1
        readLog := .bytes ((List.range n).map fun k => s.srcByte (off.toNat + k)) :: s.readLog })

/-- R241: with no command running and no transaction to make the engine is idle and all its state survives. That an
idle engine steps is the model's form (log 4). -/
def Obligations.IdleEngineKeepsItsState : Prop :=
  ∀ s : State, s.seq = .idle → s.pending = [] → step s = .next s

/-- R250, R251: the platform's reset between two commands gives the state of R51 again, registers, memories and
sequencer. That the host keeps its transactions and what it read, and that no draw is used again, is the model's
choice (log 13). -/
def Obligations.PlatformResetGivesTheResetState : Prop :=
  ∀ (s : State) (rest : List Transaction), s.seq = .idle → s.pending = .reset :: rest →
    ∃ t, step s = .next t ∧
      { t with draws := 0, pending := [], readLog := [] } = State.reset ∧
      t.draws = s.draws ∧ t.pending = rest ∧ t.readLog = s.readLog
end

