-- ==== Sys2Proof/Laws/State.lean ====
section
/-! SUPPORT. What each update of the state makes of each field: one lemma per field per update, so that no proof
unfolds a record update. -/

namespace Sys2Proof.Machine

/-! ### `STATUS` flags -/

@[simp] theorem State.setFlag_status (s : State) (x : StatusFlag) : (s.setFlag x).status = s.status ||| BitVec.twoPow 32 x.bit := rfl
@[simp] theorem State.setFlag_errcode (s : State) (x : StatusFlag) : (s.setFlag x).errcode = s.errcode := rfl
@[simp] theorem State.setFlag_srcLen (s : State) (x : StatusFlag) : (s.setFlag x).srcLen = s.srcLen := rfl
@[simp] theorem State.setFlag_blkInfo (s : State) (x : StatusFlag) : (s.setFlag x).blkInfo = s.blkInfo := rfl
@[simp] theorem State.setFlag_blkPix (s : State) (x : StatusFlag) : (s.setFlag x).blkPix = s.blkPix := rfl
@[simp] theorem State.setFlag_blkCtl (s : State) (x : StatusFlag) : (s.setFlag x).blkCtl = s.blkCtl := rfl
@[simp] theorem State.setFlag_blkAlphaLo (s : State) (x : StatusFlag) : (s.setFlag x).blkAlphaLo = s.blkAlphaLo := rfl
@[simp] theorem State.setFlag_blkAlphaHi (s : State) (x : StatusFlag) : (s.setFlag x).blkAlphaHi = s.blkAlphaHi := rfl
@[simp] theorem State.setFlag_texMagic (s : State) (x : StatusFlag) : (s.setFlag x).texMagic = s.texMagic := rfl
@[simp] theorem State.setFlag_texFlags (s : State) (x : StatusFlag) : (s.setFlag x).texFlags = s.texFlags := rfl
@[simp] theorem State.setFlag_texGeom (s : State) (x : StatusFlag) : (s.setFlag x).texGeom = s.texGeom := rfl
@[simp] theorem State.setFlag_texFmt (s : State) (x : StatusFlag) : (s.setFlag x).texFmt = s.texFmt := rfl
@[simp] theorem State.setFlag_texBlocks (s : State) (x : StatusFlag) : (s.setFlag x).texBlocks = s.texBlocks := rfl
@[simp] theorem State.setFlag_idxCount (s : State) (x : StatusFlag) : (s.setFlag x).idxCount = s.idxCount := rfl
@[simp] theorem State.setFlag_baseIndex (s : State) (x : StatusFlag) : (s.setFlag x).baseIndex = s.baseIndex := rfl
@[simp] theorem State.setFlag_triCount (s : State) (x : StatusFlag) : (s.setFlag x).triCount = s.triCount := rfl
@[simp] theorem State.setFlag_col (s : State) (x : StatusFlag) : (s.setFlag x).col = s.col := rfl
@[simp] theorem State.setFlag_src (s : State) (x : StatusFlag) : (s.setFlag x).src = s.src := rfl
@[simp] theorem State.setFlag_pix (s : State) (x : StatusFlag) : (s.setFlag x).pix = s.pix := rfl
@[simp] theorem State.setFlag_tri (s : State) (x : StatusFlag) : (s.setFlag x).tri = s.tri := rfl
@[simp] theorem State.setFlag_seq (s : State) (x : StatusFlag) : (s.setFlag x).seq = s.seq := rfl
@[simp] theorem State.setFlag_draws (s : State) (x : StatusFlag) : (s.setFlag x).draws = s.draws := rfl
@[simp] theorem State.setFlag_pending (s : State) (x : StatusFlag) : (s.setFlag x).pending = s.pending := rfl
@[simp] theorem State.setFlag_readLog (s : State) (x : StatusFlag) : (s.setFlag x).readLog = s.readLog := rfl

/-! ### `STATUS` flags, cleared -/

@[simp] theorem State.clearFlag_status (s : State) (x : StatusFlag) : (s.clearFlag x).status = s.status &&& ~~~(BitVec.twoPow 32 x.bit) := rfl
@[simp] theorem State.clearFlag_errcode (s : State) (x : StatusFlag) : (s.clearFlag x).errcode = s.errcode := rfl
@[simp] theorem State.clearFlag_srcLen (s : State) (x : StatusFlag) : (s.clearFlag x).srcLen = s.srcLen := rfl
@[simp] theorem State.clearFlag_blkInfo (s : State) (x : StatusFlag) : (s.clearFlag x).blkInfo = s.blkInfo := rfl
@[simp] theorem State.clearFlag_blkPix (s : State) (x : StatusFlag) : (s.clearFlag x).blkPix = s.blkPix := rfl
@[simp] theorem State.clearFlag_blkCtl (s : State) (x : StatusFlag) : (s.clearFlag x).blkCtl = s.blkCtl := rfl
@[simp] theorem State.clearFlag_blkAlphaLo (s : State) (x : StatusFlag) : (s.clearFlag x).blkAlphaLo = s.blkAlphaLo := rfl
@[simp] theorem State.clearFlag_blkAlphaHi (s : State) (x : StatusFlag) : (s.clearFlag x).blkAlphaHi = s.blkAlphaHi := rfl
@[simp] theorem State.clearFlag_texMagic (s : State) (x : StatusFlag) : (s.clearFlag x).texMagic = s.texMagic := rfl
@[simp] theorem State.clearFlag_texFlags (s : State) (x : StatusFlag) : (s.clearFlag x).texFlags = s.texFlags := rfl
@[simp] theorem State.clearFlag_texGeom (s : State) (x : StatusFlag) : (s.clearFlag x).texGeom = s.texGeom := rfl
@[simp] theorem State.clearFlag_texFmt (s : State) (x : StatusFlag) : (s.clearFlag x).texFmt = s.texFmt := rfl
@[simp] theorem State.clearFlag_texBlocks (s : State) (x : StatusFlag) : (s.clearFlag x).texBlocks = s.texBlocks := rfl
@[simp] theorem State.clearFlag_idxCount (s : State) (x : StatusFlag) : (s.clearFlag x).idxCount = s.idxCount := rfl
@[simp] theorem State.clearFlag_baseIndex (s : State) (x : StatusFlag) : (s.clearFlag x).baseIndex = s.baseIndex := rfl
@[simp] theorem State.clearFlag_triCount (s : State) (x : StatusFlag) : (s.clearFlag x).triCount = s.triCount := rfl
@[simp] theorem State.clearFlag_col (s : State) (x : StatusFlag) : (s.clearFlag x).col = s.col := rfl
@[simp] theorem State.clearFlag_src (s : State) (x : StatusFlag) : (s.clearFlag x).src = s.src := rfl
@[simp] theorem State.clearFlag_pix (s : State) (x : StatusFlag) : (s.clearFlag x).pix = s.pix := rfl
@[simp] theorem State.clearFlag_tri (s : State) (x : StatusFlag) : (s.clearFlag x).tri = s.tri := rfl
@[simp] theorem State.clearFlag_seq (s : State) (x : StatusFlag) : (s.clearFlag x).seq = s.seq := rfl
@[simp] theorem State.clearFlag_draws (s : State) (x : StatusFlag) : (s.clearFlag x).draws = s.draws := rfl
@[simp] theorem State.clearFlag_pending (s : State) (x : StatusFlag) : (s.clearFlag x).pending = s.pending := rfl
@[simp] theorem State.clearFlag_readLog (s : State) (x : StatusFlag) : (s.clearFlag x).readLog = s.readLog := rfl

/-! ### `STATUS` flags, set on a condition -/

@[simp] theorem State.setFlagIf_status (s : State) (c : Bool) (x : StatusFlag) : (s.setFlagIf c x).status = if c then s.status ||| BitVec.twoPow 32 x.bit else s.status := by cases c <;> rfl
@[simp] theorem State.setFlagIf_errcode (s : State) (c : Bool) (x : StatusFlag) : (s.setFlagIf c x).errcode = s.errcode := by cases c <;> rfl
@[simp] theorem State.setFlagIf_srcLen (s : State) (c : Bool) (x : StatusFlag) : (s.setFlagIf c x).srcLen = s.srcLen := by cases c <;> rfl
@[simp] theorem State.setFlagIf_blkInfo (s : State) (c : Bool) (x : StatusFlag) : (s.setFlagIf c x).blkInfo = s.blkInfo := by cases c <;> rfl
@[simp] theorem State.setFlagIf_blkPix (s : State) (c : Bool) (x : StatusFlag) : (s.setFlagIf c x).blkPix = s.blkPix := by cases c <;> rfl
@[simp] theorem State.setFlagIf_blkCtl (s : State) (c : Bool) (x : StatusFlag) : (s.setFlagIf c x).blkCtl = s.blkCtl := by cases c <;> rfl
@[simp] theorem State.setFlagIf_blkAlphaLo (s : State) (c : Bool) (x : StatusFlag) : (s.setFlagIf c x).blkAlphaLo = s.blkAlphaLo := by cases c <;> rfl
@[simp] theorem State.setFlagIf_blkAlphaHi (s : State) (c : Bool) (x : StatusFlag) : (s.setFlagIf c x).blkAlphaHi = s.blkAlphaHi := by cases c <;> rfl
@[simp] theorem State.setFlagIf_texMagic (s : State) (c : Bool) (x : StatusFlag) : (s.setFlagIf c x).texMagic = s.texMagic := by cases c <;> rfl
@[simp] theorem State.setFlagIf_texFlags (s : State) (c : Bool) (x : StatusFlag) : (s.setFlagIf c x).texFlags = s.texFlags := by cases c <;> rfl
@[simp] theorem State.setFlagIf_texGeom (s : State) (c : Bool) (x : StatusFlag) : (s.setFlagIf c x).texGeom = s.texGeom := by cases c <;> rfl
@[simp] theorem State.setFlagIf_texFmt (s : State) (c : Bool) (x : StatusFlag) : (s.setFlagIf c x).texFmt = s.texFmt := by cases c <;> rfl
@[simp] theorem State.setFlagIf_texBlocks (s : State) (c : Bool) (x : StatusFlag) : (s.setFlagIf c x).texBlocks = s.texBlocks := by cases c <;> rfl
@[simp] theorem State.setFlagIf_idxCount (s : State) (c : Bool) (x : StatusFlag) : (s.setFlagIf c x).idxCount = s.idxCount := by cases c <;> rfl
@[simp] theorem State.setFlagIf_baseIndex (s : State) (c : Bool) (x : StatusFlag) : (s.setFlagIf c x).baseIndex = s.baseIndex := by cases c <;> rfl
@[simp] theorem State.setFlagIf_triCount (s : State) (c : Bool) (x : StatusFlag) : (s.setFlagIf c x).triCount = s.triCount := by cases c <;> rfl
@[simp] theorem State.setFlagIf_col (s : State) (c : Bool) (x : StatusFlag) : (s.setFlagIf c x).col = s.col := by cases c <;> rfl
@[simp] theorem State.setFlagIf_src (s : State) (c : Bool) (x : StatusFlag) : (s.setFlagIf c x).src = s.src := by cases c <;> rfl
@[simp] theorem State.setFlagIf_pix (s : State) (c : Bool) (x : StatusFlag) : (s.setFlagIf c x).pix = s.pix := by cases c <;> rfl
@[simp] theorem State.setFlagIf_tri (s : State) (c : Bool) (x : StatusFlag) : (s.setFlagIf c x).tri = s.tri := by cases c <;> rfl
@[simp] theorem State.setFlagIf_seq (s : State) (c : Bool) (x : StatusFlag) : (s.setFlagIf c x).seq = s.seq := by cases c <;> rfl
@[simp] theorem State.setFlagIf_draws (s : State) (c : Bool) (x : StatusFlag) : (s.setFlagIf c x).draws = s.draws := by cases c <;> rfl
@[simp] theorem State.setFlagIf_pending (s : State) (c : Bool) (x : StatusFlag) : (s.setFlagIf c x).pending = s.pending := by cases c <;> rfl
@[simp] theorem State.setFlagIf_readLog (s : State) (c : Bool) (x : StatusFlag) : (s.setFlagIf c x).readLog = s.readLog := by cases c <;> rfl

/-! ### Reporting a fault -/

@[simp] theorem State.raise_status (s : State) (e : ErrKind) : (s.raise e).status = s.status ||| BitVec.twoPow 32 StatusFlag.err.bit := rfl
@[simp] theorem State.raise_errcode (s : State) (e : ErrKind) : (s.raise e).errcode = e.code := rfl
@[simp] theorem State.raise_srcLen (s : State) (e : ErrKind) : (s.raise e).srcLen = s.srcLen := rfl
@[simp] theorem State.raise_blkInfo (s : State) (e : ErrKind) : (s.raise e).blkInfo = s.blkInfo := rfl
@[simp] theorem State.raise_blkPix (s : State) (e : ErrKind) : (s.raise e).blkPix = s.blkPix := rfl
@[simp] theorem State.raise_blkCtl (s : State) (e : ErrKind) : (s.raise e).blkCtl = s.blkCtl := rfl
@[simp] theorem State.raise_blkAlphaLo (s : State) (e : ErrKind) : (s.raise e).blkAlphaLo = s.blkAlphaLo := rfl
@[simp] theorem State.raise_blkAlphaHi (s : State) (e : ErrKind) : (s.raise e).blkAlphaHi = s.blkAlphaHi := rfl
@[simp] theorem State.raise_texMagic (s : State) (e : ErrKind) : (s.raise e).texMagic = s.texMagic := rfl
@[simp] theorem State.raise_texFlags (s : State) (e : ErrKind) : (s.raise e).texFlags = s.texFlags := rfl
@[simp] theorem State.raise_texGeom (s : State) (e : ErrKind) : (s.raise e).texGeom = s.texGeom := rfl
@[simp] theorem State.raise_texFmt (s : State) (e : ErrKind) : (s.raise e).texFmt = s.texFmt := rfl
@[simp] theorem State.raise_texBlocks (s : State) (e : ErrKind) : (s.raise e).texBlocks = s.texBlocks := rfl
@[simp] theorem State.raise_idxCount (s : State) (e : ErrKind) : (s.raise e).idxCount = s.idxCount := rfl
@[simp] theorem State.raise_baseIndex (s : State) (e : ErrKind) : (s.raise e).baseIndex = s.baseIndex := rfl
@[simp] theorem State.raise_triCount (s : State) (e : ErrKind) : (s.raise e).triCount = s.triCount := rfl
@[simp] theorem State.raise_col (s : State) (e : ErrKind) : (s.raise e).col = s.col := rfl
@[simp] theorem State.raise_src (s : State) (e : ErrKind) : (s.raise e).src = s.src := rfl
@[simp] theorem State.raise_pix (s : State) (e : ErrKind) : (s.raise e).pix = s.pix := rfl
@[simp] theorem State.raise_tri (s : State) (e : ErrKind) : (s.raise e).tri = s.tri := rfl
@[simp] theorem State.raise_seq (s : State) (e : ErrKind) : (s.raise e).seq = s.seq := rfl
@[simp] theorem State.raise_draws (s : State) (e : ErrKind) : (s.raise e).draws = s.draws := rfl
@[simp] theorem State.raise_pending (s : State) (e : ErrKind) : (s.raise e).pending = s.pending := rfl
@[simp] theorem State.raise_readLog (s : State) (e : ErrKind) : (s.raise e).readLog = s.readLog := rfl

/-! ### Clearing the status -/

@[simp] theorem State.clearStatus_status (s : State) : (s.clearStatus).status = 0 := rfl
@[simp] theorem State.clearStatus_errcode (s : State) : (s.clearStatus).errcode = 0 := rfl
@[simp] theorem State.clearStatus_srcLen (s : State) : (s.clearStatus).srcLen = s.srcLen := rfl
@[simp] theorem State.clearStatus_blkInfo (s : State) : (s.clearStatus).blkInfo = s.blkInfo := rfl
@[simp] theorem State.clearStatus_blkPix (s : State) : (s.clearStatus).blkPix = s.blkPix := rfl
@[simp] theorem State.clearStatus_blkCtl (s : State) : (s.clearStatus).blkCtl = s.blkCtl := rfl
@[simp] theorem State.clearStatus_blkAlphaLo (s : State) : (s.clearStatus).blkAlphaLo = s.blkAlphaLo := rfl
@[simp] theorem State.clearStatus_blkAlphaHi (s : State) : (s.clearStatus).blkAlphaHi = s.blkAlphaHi := rfl
@[simp] theorem State.clearStatus_texMagic (s : State) : (s.clearStatus).texMagic = s.texMagic := rfl
@[simp] theorem State.clearStatus_texFlags (s : State) : (s.clearStatus).texFlags = s.texFlags := rfl
@[simp] theorem State.clearStatus_texGeom (s : State) : (s.clearStatus).texGeom = s.texGeom := rfl
@[simp] theorem State.clearStatus_texFmt (s : State) : (s.clearStatus).texFmt = s.texFmt := rfl
@[simp] theorem State.clearStatus_texBlocks (s : State) : (s.clearStatus).texBlocks = s.texBlocks := rfl
@[simp] theorem State.clearStatus_idxCount (s : State) : (s.clearStatus).idxCount = s.idxCount := rfl
@[simp] theorem State.clearStatus_baseIndex (s : State) : (s.clearStatus).baseIndex = s.baseIndex := rfl
@[simp] theorem State.clearStatus_triCount (s : State) : (s.clearStatus).triCount = s.triCount := rfl
@[simp] theorem State.clearStatus_col (s : State) : (s.clearStatus).col = s.col := rfl
@[simp] theorem State.clearStatus_src (s : State) : (s.clearStatus).src = s.src := rfl
@[simp] theorem State.clearStatus_pix (s : State) : (s.clearStatus).pix = s.pix := rfl
@[simp] theorem State.clearStatus_tri (s : State) : (s.clearStatus).tri = s.tri := rfl
@[simp] theorem State.clearStatus_seq (s : State) : (s.clearStatus).seq = s.seq := rfl
@[simp] theorem State.clearStatus_draws (s : State) : (s.clearStatus).draws = s.draws := rfl
@[simp] theorem State.clearStatus_pending (s : State) : (s.clearStatus).pending = s.pending := rfl
@[simp] theorem State.clearStatus_readLog (s : State) : (s.clearStatus).readLog = s.readLog := rfl

/-! ### The draw counter -/

@[simp] theorem State.nextDraw_status (s : State) : (s.nextDraw).status = s.status := rfl
@[simp] theorem State.nextDraw_errcode (s : State) : (s.nextDraw).errcode = s.errcode := rfl
@[simp] theorem State.nextDraw_srcLen (s : State) : (s.nextDraw).srcLen = s.srcLen := rfl
@[simp] theorem State.nextDraw_blkInfo (s : State) : (s.nextDraw).blkInfo = s.blkInfo := rfl
@[simp] theorem State.nextDraw_blkPix (s : State) : (s.nextDraw).blkPix = s.blkPix := rfl
@[simp] theorem State.nextDraw_blkCtl (s : State) : (s.nextDraw).blkCtl = s.blkCtl := rfl
@[simp] theorem State.nextDraw_blkAlphaLo (s : State) : (s.nextDraw).blkAlphaLo = s.blkAlphaLo := rfl
@[simp] theorem State.nextDraw_blkAlphaHi (s : State) : (s.nextDraw).blkAlphaHi = s.blkAlphaHi := rfl
@[simp] theorem State.nextDraw_texMagic (s : State) : (s.nextDraw).texMagic = s.texMagic := rfl
@[simp] theorem State.nextDraw_texFlags (s : State) : (s.nextDraw).texFlags = s.texFlags := rfl
@[simp] theorem State.nextDraw_texGeom (s : State) : (s.nextDraw).texGeom = s.texGeom := rfl
@[simp] theorem State.nextDraw_texFmt (s : State) : (s.nextDraw).texFmt = s.texFmt := rfl
@[simp] theorem State.nextDraw_texBlocks (s : State) : (s.nextDraw).texBlocks = s.texBlocks := rfl
@[simp] theorem State.nextDraw_idxCount (s : State) : (s.nextDraw).idxCount = s.idxCount := rfl
@[simp] theorem State.nextDraw_baseIndex (s : State) : (s.nextDraw).baseIndex = s.baseIndex := rfl
@[simp] theorem State.nextDraw_triCount (s : State) : (s.nextDraw).triCount = s.triCount := rfl
@[simp] theorem State.nextDraw_col (s : State) : (s.nextDraw).col = s.col := rfl
@[simp] theorem State.nextDraw_src (s : State) : (s.nextDraw).src = s.src := rfl
@[simp] theorem State.nextDraw_pix (s : State) : (s.nextDraw).pix = s.pix := rfl
@[simp] theorem State.nextDraw_tri (s : State) : (s.nextDraw).tri = s.tri := rfl
@[simp] theorem State.nextDraw_seq (s : State) : (s.nextDraw).seq = s.seq := rfl
@[simp] theorem State.nextDraw_draws (s : State) : (s.nextDraw).draws = s.draws + 1 := rfl
@[simp] theorem State.nextDraw_pending (s : State) : (s.nextDraw).pending = s.pending := rfl
@[simp] theorem State.nextDraw_readLog (s : State) : (s.nextDraw).readLog = s.readLog := rfl

/-! ### The header latches -/

@[simp] theorem State.latchHeader_status (s : State) : (s.latchHeader).status = s.status := rfl
@[simp] theorem State.latchHeader_errcode (s : State) : (s.latchHeader).errcode = s.errcode := rfl
@[simp] theorem State.latchHeader_srcLen (s : State) : (s.latchHeader).srcLen = s.srcLen := rfl
@[simp] theorem State.latchHeader_blkInfo (s : State) : (s.latchHeader).blkInfo = s.blkInfo := rfl
@[simp] theorem State.latchHeader_blkPix (s : State) : (s.latchHeader).blkPix = s.blkPix := rfl
@[simp] theorem State.latchHeader_blkCtl (s : State) : (s.latchHeader).blkCtl = s.blkCtl := rfl
@[simp] theorem State.latchHeader_blkAlphaLo (s : State) : (s.latchHeader).blkAlphaLo = s.blkAlphaLo := rfl
@[simp] theorem State.latchHeader_blkAlphaHi (s : State) : (s.latchHeader).blkAlphaHi = s.blkAlphaHi := rfl
@[simp] theorem State.latchHeader_texMagic (s : State) : (s.latchHeader).texMagic = s.memRead32 0 := rfl
@[simp] theorem State.latchHeader_texFlags (s : State) : (s.latchHeader).texFlags = s.memRead32 4 := rfl
@[simp] theorem State.latchHeader_texGeom (s : State) : (s.latchHeader).texGeom = s.memRead32 8 := rfl
@[simp] theorem State.latchHeader_texFmt (s : State) : (s.latchHeader).texFmt = s.memRead32 12 := rfl
@[simp] theorem State.latchHeader_texBlocks (s : State) : (s.latchHeader).texBlocks = s.texBlocks := rfl
@[simp] theorem State.latchHeader_idxCount (s : State) : (s.latchHeader).idxCount = s.idxCount := rfl
@[simp] theorem State.latchHeader_baseIndex (s : State) : (s.latchHeader).baseIndex = s.baseIndex := rfl
@[simp] theorem State.latchHeader_triCount (s : State) : (s.latchHeader).triCount = s.triCount := rfl
@[simp] theorem State.latchHeader_col (s : State) : (s.latchHeader).col = s.col := rfl
@[simp] theorem State.latchHeader_src (s : State) : (s.latchHeader).src = s.src := rfl
@[simp] theorem State.latchHeader_pix (s : State) : (s.latchHeader).pix = s.pix := rfl
@[simp] theorem State.latchHeader_tri (s : State) : (s.latchHeader).tri = s.tri := rfl
@[simp] theorem State.latchHeader_seq (s : State) : (s.latchHeader).seq = s.seq := rfl
@[simp] theorem State.latchHeader_draws (s : State) : (s.latchHeader).draws = s.draws + 1 := rfl
@[simp] theorem State.latchHeader_pending (s : State) : (s.latchHeader).pending = s.pending := rfl
@[simp] theorem State.latchHeader_readLog (s : State) : (s.latchHeader).readLog = s.readLog := rfl

/-! ### The end of a strip -/

@[simp] theorem State.sidEnd_status (s : State) (nt : Nat) : (s.sidEnd nt).status = s.status ||| BitVec.twoPow 32 StatusFlag.done.bit := rfl
@[simp] theorem State.sidEnd_errcode (s : State) (nt : Nat) : (s.sidEnd nt).errcode = s.errcode := rfl
@[simp] theorem State.sidEnd_srcLen (s : State) (nt : Nat) : (s.sidEnd nt).srcLen = s.srcLen := rfl
@[simp] theorem State.sidEnd_blkInfo (s : State) (nt : Nat) : (s.sidEnd nt).blkInfo = s.blkInfo := rfl
@[simp] theorem State.sidEnd_blkPix (s : State) (nt : Nat) : (s.sidEnd nt).blkPix = s.blkPix := rfl
@[simp] theorem State.sidEnd_blkCtl (s : State) (nt : Nat) : (s.sidEnd nt).blkCtl = s.blkCtl := rfl
@[simp] theorem State.sidEnd_blkAlphaLo (s : State) (nt : Nat) : (s.sidEnd nt).blkAlphaLo = s.blkAlphaLo := rfl
@[simp] theorem State.sidEnd_blkAlphaHi (s : State) (nt : Nat) : (s.sidEnd nt).blkAlphaHi = s.blkAlphaHi := rfl
@[simp] theorem State.sidEnd_texMagic (s : State) (nt : Nat) : (s.sidEnd nt).texMagic = s.texMagic := rfl
@[simp] theorem State.sidEnd_texFlags (s : State) (nt : Nat) : (s.sidEnd nt).texFlags = s.texFlags := rfl
@[simp] theorem State.sidEnd_texGeom (s : State) (nt : Nat) : (s.sidEnd nt).texGeom = s.texGeom := rfl
@[simp] theorem State.sidEnd_texFmt (s : State) (nt : Nat) : (s.sidEnd nt).texFmt = s.texFmt := rfl
@[simp] theorem State.sidEnd_texBlocks (s : State) (nt : Nat) : (s.sidEnd nt).texBlocks = s.texBlocks := rfl
@[simp] theorem State.sidEnd_idxCount (s : State) (nt : Nat) : (s.sidEnd nt).idxCount = s.idxCount := rfl
@[simp] theorem State.sidEnd_baseIndex (s : State) (nt : Nat) : (s.sidEnd nt).baseIndex = s.baseIndex := rfl
@[simp] theorem State.sidEnd_triCount (s : State) (nt : Nat) : (s.sidEnd nt).triCount = BitVec.ofNat 32 nt := rfl
@[simp] theorem State.sidEnd_col (s : State) (nt : Nat) : (s.sidEnd nt).col = s.col := rfl
@[simp] theorem State.sidEnd_src (s : State) (nt : Nat) : (s.sidEnd nt).src = s.src := rfl
@[simp] theorem State.sidEnd_pix (s : State) (nt : Nat) : (s.sidEnd nt).pix = s.pix := rfl
@[simp] theorem State.sidEnd_tri (s : State) (nt : Nat) : (s.sidEnd nt).tri = s.tri := rfl
@[simp] theorem State.sidEnd_seq (s : State) (nt : Nat) : (s.sidEnd nt).seq = .idle := rfl
@[simp] theorem State.sidEnd_draws (s : State) (nt : Nat) : (s.sidEnd nt).draws = s.draws := rfl
@[simp] theorem State.sidEnd_pending (s : State) (nt : Nat) : (s.sidEnd nt).pending = s.pending := rfl
@[simp] theorem State.sidEnd_readLog (s : State) (nt : Nat) : (s.sidEnd nt).readLog = s.readLog := rfl

/-! ### A value returned to the host -/

@[simp] theorem State.returnToHost_status (s : State) (v : HostValue) : (s.returnToHost v).status = s.status := rfl
@[simp] theorem State.returnToHost_errcode (s : State) (v : HostValue) : (s.returnToHost v).errcode = s.errcode := rfl
@[simp] theorem State.returnToHost_srcLen (s : State) (v : HostValue) : (s.returnToHost v).srcLen = s.srcLen := rfl
@[simp] theorem State.returnToHost_blkInfo (s : State) (v : HostValue) : (s.returnToHost v).blkInfo = s.blkInfo := rfl
@[simp] theorem State.returnToHost_blkPix (s : State) (v : HostValue) : (s.returnToHost v).blkPix = s.blkPix := rfl
@[simp] theorem State.returnToHost_blkCtl (s : State) (v : HostValue) : (s.returnToHost v).blkCtl = s.blkCtl := rfl
@[simp] theorem State.returnToHost_blkAlphaLo (s : State) (v : HostValue) : (s.returnToHost v).blkAlphaLo = s.blkAlphaLo := rfl
@[simp] theorem State.returnToHost_blkAlphaHi (s : State) (v : HostValue) : (s.returnToHost v).blkAlphaHi = s.blkAlphaHi := rfl
@[simp] theorem State.returnToHost_texMagic (s : State) (v : HostValue) : (s.returnToHost v).texMagic = s.texMagic := rfl
@[simp] theorem State.returnToHost_texFlags (s : State) (v : HostValue) : (s.returnToHost v).texFlags = s.texFlags := rfl
@[simp] theorem State.returnToHost_texGeom (s : State) (v : HostValue) : (s.returnToHost v).texGeom = s.texGeom := rfl
@[simp] theorem State.returnToHost_texFmt (s : State) (v : HostValue) : (s.returnToHost v).texFmt = s.texFmt := rfl
@[simp] theorem State.returnToHost_texBlocks (s : State) (v : HostValue) : (s.returnToHost v).texBlocks = s.texBlocks := rfl
@[simp] theorem State.returnToHost_idxCount (s : State) (v : HostValue) : (s.returnToHost v).idxCount = s.idxCount := rfl
@[simp] theorem State.returnToHost_baseIndex (s : State) (v : HostValue) : (s.returnToHost v).baseIndex = s.baseIndex := rfl
@[simp] theorem State.returnToHost_triCount (s : State) (v : HostValue) : (s.returnToHost v).triCount = s.triCount := rfl
@[simp] theorem State.returnToHost_col (s : State) (v : HostValue) : (s.returnToHost v).col = s.col := rfl
@[simp] theorem State.returnToHost_src (s : State) (v : HostValue) : (s.returnToHost v).src = s.src := rfl
@[simp] theorem State.returnToHost_pix (s : State) (v : HostValue) : (s.returnToHost v).pix = s.pix := rfl
@[simp] theorem State.returnToHost_tri (s : State) (v : HostValue) : (s.returnToHost v).tri = s.tri := rfl
@[simp] theorem State.returnToHost_seq (s : State) (v : HostValue) : (s.returnToHost v).seq = s.seq := rfl
@[simp] theorem State.returnToHost_draws (s : State) (v : HostValue) : (s.returnToHost v).draws = s.draws + 1 := rfl
@[simp] theorem State.returnToHost_pending (s : State) (v : HostValue) : (s.returnToHost v).pending = s.pending := rfl
@[simp] theorem State.returnToHost_readLog (s : State) (v : HostValue) : (s.returnToHost v).readLog = v :: s.readLog := rfl

end Sys2Proof.Machine
end

