-- ==== Sys2Proof/Laws/Flags.lean ====
section
/-! SUPPORT. What setting and clearing a flag of `STATUS` does to every flag. -/

namespace Sys2Proof.Machine

theorem StatusFlag.bit_lt (f : StatusFlag) : f.bit < 32 := by cases f <;> decide

theorem StatusFlag.bit_inj {f g : StatusFlag} : f.bit = g.bit ↔ f = g := by
  cases f <;> cases g <;> decide

@[simp] theorem State.hasFlag_setFlag (s : State) (f g : StatusFlag) :
    (s.setFlag f).hasFlag g = (s.hasFlag g || decide (f = g)) := by
  simp [State.hasFlag, State.setFlag, BitVec.getLsbD_twoPow, f.bit_lt, StatusFlag.bit_inj]

@[simp] theorem State.hasFlag_clearFlag (s : State) (f g : StatusFlag) :
    (s.clearFlag f).hasFlag g = (s.hasFlag g && !decide (f = g)) := by
  simp [State.hasFlag, State.clearFlag, g.bit_lt, StatusFlag.bit_inj, eq_comm]

@[simp] theorem State.hasFlag_setFlagIf (s : State) (c : Bool) (f g : StatusFlag) :
    (s.setFlagIf c f).hasFlag g = (s.hasFlag g || (c && decide (f = g))) := by
  cases c <;> simp [State.setFlagIf]

@[simp] theorem State.hasFlag_raise (s : State) (e : ErrKind) (g : StatusFlag) :
    (s.raise e).hasFlag g = (s.hasFlag g || decide (StatusFlag.err = g)) :=
  s.hasFlag_setFlag .err g

@[simp] theorem State.hasFlag_nextDraw (s : State) (g : StatusFlag) : s.nextDraw.hasFlag g = s.hasFlag g := rfl

@[simp] theorem State.hasFlag_clearStatus (s : State) (g : StatusFlag) : s.clearStatus.hasFlag g = false := by
  simp [State.hasFlag]

/-- Setting a flag leaves the reserved bits of `STATUS` as they are (R25). -/
theorem StatusFlag.twoPow_reserved (f : StatusFlag) : BitVec.twoPow 32 f.bit &&& 0xFFFFFF8C#32 = 0 := by
  cases f <;> decide

theorem status_or_reserved {w : Word} (f : StatusFlag) (h : w &&& 0xFFFFFF8C#32 = 0) :
    (w ||| BitVec.twoPow 32 f.bit) &&& 0xFFFFFF8C#32 = 0 := by
  rw [BitVec.and_comm, BitVec.and_or_distrib_left, BitVec.and_comm, h, BitVec.and_comm, f.twoPow_reserved]
  rfl

theorem status_and_reserved {w : Word} (x : Word) (h : w &&& 0xFFFFFF8C#32 = 0) :
    (w &&& x) &&& 0xFFFFFF8C#32 = 0 := by
  rw [BitVec.and_assoc, BitVec.and_comm x, ← BitVec.and_assoc, h]
  exact BitVec.zero_and

/-- No fault's code is 0, and every one that is raised is among those of R221. -/
theorem ErrKind.code_ne_zero (e : ErrKind) : e.code ≠ 0 := by cases e <;> decide

end Sys2Proof.Machine
end

