-- ==== Sys2Proof/Laws/Memory.lean ====
section
/-! SUPPORT. What reading and writing a memory in canonical form do, and that every memory operation keeps the
form. -/

namespace Sys2Proof.Machine

variable {α : Type}

@[simp] theorem Memory.read_nil (k : Nat) : Memory.read ([] : Memory α) k = none := rfl

@[simp] theorem Memory.read_write_self (m : Memory α) (k : Nat) (v : α) :
    (m.write k v).read k = some v := by
  induction m with
  | nil => simp [Memory.write, Memory.read]
  | cons c m ih =>
    obtain ⟨k', v'⟩ := c
    simp only [Memory.write]
    split_ifs with h1 h2
    · simp [Memory.read]
    · simp [Memory.read]
    · simp [Memory.read, Ne.symm h2, ih]

theorem Memory.read_write_ne (m : Memory α) {k k' : Nat} (v : α) (h : k' ≠ k) :
    (m.write k v).read k' = m.read k' := by
  induction m with
  | nil => simp [Memory.write, Memory.read, Ne.symm h]
  | cons c m ih =>
    obtain ⟨j, w⟩ := c
    simp only [Memory.write]
    split_ifs with h1 h2
    · simp [Memory.read, Ne.symm h]
    · subst h2
      simp [Memory.read, Ne.symm h]
    · simp [Memory.read, ih]

theorem Memory.read_write (m : Memory α) (k k' : Nat) (v : α) :
    (m.write k v).read k' = if k' = k then some v else m.read k' := by
  split_ifs with h
  · subst h; simp
  · exact m.read_write_ne v h

/-- The keys of a memory after a write: the old ones and the written one. -/
theorem Memory.mem_keys_write {m : Memory α} {k j : Nat} {v : α} (h : j ∈ (m.write k v).map Prod.fst) :
    j = k ∨ j ∈ m.map Prod.fst := by
  induction m with
  | nil => simpa [Memory.write] using h
  | cons c m ih =>
    obtain ⟨k', v'⟩ := c
    simp only [Memory.write] at h
    split_ifs at h with h1 h2 <;> simp only [List.map_cons, List.mem_cons] at h ⊢
    · tauto
    · tauto
    · rcases h with h | h
      · tauto
      · rcases ih h with h | h <;> tauto

theorem Memory.sorted_write {m : Memory α} (k : Nat) (v : α) (h : (m.map Prod.fst).Pairwise (· < ·)) :
    ((m.write k v).map Prod.fst).Pairwise (· < ·) := by
  induction m with
  | nil => simp [Memory.write]
  | cons c m ih =>
    obtain ⟨k', v'⟩ := c
    simp only [List.map_cons, List.pairwise_cons] at h
    simp only [Memory.write]
    split_ifs with h1 h2
    · simp only [List.map_cons, List.pairwise_cons]
      refine ⟨fun j hj => ?_, h.1, h.2⟩
      rcases List.mem_cons.mp hj with rfl | hj
      · exact h1
      · exact Nat.lt_trans h1 (h.1 j hj)
    · subst h2
      simpa using h
    · simp only [List.map_cons, List.pairwise_cons]
      refine ⟨fun j hj => ?_, ih h.2⟩
      rcases Memory.mem_keys_write hj with rfl | hj
      · omega
      · exact h.1 j hj

/-- A write inside the space keeps the canonical form. -/
theorem Memory.wf_write {size : Nat} {m : Memory α} {k : Nat} (v : α) (h : m.wf size) (hk : k < size) :
    (m.write k v).wf size := by
  refine ⟨Memory.sorted_write k v h.1, fun j hj => ?_⟩
  rcases Memory.mem_keys_write hj with rfl | hj
  · exact hk
  · exact h.2 j hj

theorem Memory.wf_nil (size : Nat) : Memory.wf (α := α) size [] := by simp [Memory.wf]

theorem Memory.wf_forgetBelow {size : Nat} {m : Memory α} (n : Nat) (h : m.wf size) :
    (m.forgetBelow n).wf size := by
  have hs : ((m.forgetBelow n).map Prod.fst).Sublist (m.map Prod.fst) :=
    List.Sublist.map _ List.filter_sublist
  exact ⟨h.1.sublist hs, fun k hk => h.2 k (hs.subset hk)⟩

theorem Memory.read_forgetBelow (m : Memory α) (n k : Nat) :
    (m.forgetBelow n).read k = if k < n then none else m.read k := by
  induction m with
  | nil => simp [Memory.forgetBelow]
  | cons c m ih =>
    obtain ⟨k', v'⟩ := c
    simp only [Memory.forgetBelow] at ih ⊢
    rw [List.filter_cons]
    by_cases hn : n ≤ k'
    · simp only [hn, decide_true, if_true, Memory.read, ih]
      by_cases hk : k' = k
      · subst hk; simp [Nat.not_lt.mpr hn]
      · simp [hk]
    · simp only [hn, decide_false, Bool.false_eq_true, if_false, ih, Memory.read]
      by_cases hk : k' = k
      · subst hk; simp [Nat.lt_of_not_le hn]
      · simp [hk]

/-- Writing what an entry already holds changes nothing in a canonical memory. -/
theorem Memory.write_same {m : Memory α} {k : Nat} {v : α} (h : (m.map Prod.fst).Pairwise (· < ·))
    (hr : m.read k = some v) : m.write k v = m := by
  induction m with
  | nil => simp at hr
  | cons c m ih =>
    obtain ⟨k', v'⟩ := c
    simp only [List.map_cons, List.pairwise_cons] at h
    by_cases hk : k' = k
    · subst hk
      simp [Memory.read] at hr
      simp [Memory.write, hr]
    · simp only [Memory.read, hk, if_false] at hr
      have hmem : k ∈ m.map Prod.fst := by
        clear ih h
        induction m with
        | nil => simp at hr
        | cons d m ih2 =>
          obtain ⟨j, w⟩ := d
          by_cases hj : j = k
          · simp [hj]
          · simp only [Memory.read, hj, if_false] at hr
            exact List.mem_cons_of_mem _ (ih2 hr)
      have hlt := h.1 k hmem
      simp [Memory.write, Nat.not_lt.mpr (Nat.le_of_lt hlt), Ne.symm hk, ih h.2 hr]

theorem Memory.wf_writeBytes {size : Nat} (bs : List Byte) {m : Memory Byte} {off : Nat} (h : m.wf size)
    (hb : off + bs.length ≤ size) : (m.writeBytes off bs).wf size := by
  induction bs generalizing m off with
  | nil => exact h
  | cons b bs ih =>
    simp only [List.length_cons] at hb
    exact ih (Memory.wf_write b h (by omega)) (by omega)

/-- Bytes below the written range are as before. -/
theorem Memory.read_writeBytes_below (bs : List Byte) (m : Memory Byte) {off a : Nat} (h : a < off) :
    (m.writeBytes off bs).read a = m.read a := by
  induction bs generalizing m off with
  | nil => rfl
  | cons b bs ih =>
    simp only [Memory.writeBytes]
    rw [ih _ (by omega), Memory.read_write_ne _ _ (by omega)]

theorem Memory.wf_writeTri {n : Nat} {m : Memory Word} {t : Nat} (e : Tri3) (h : m.wf (3 * n)) (ht : t < n) :
    (m.writeTri t e).wf (3 * n) := by
  simp only [Memory.writeTri]
  refine Memory.wf_write _ (Memory.wf_write _ (Memory.wf_write _ h ?_) ?_) ?_ <;>
    simp only [triKey, TriLane.index] <;> omega

/-- A word of another entry is as before. -/
theorem Memory.read_writeTri_ne (m : Memory Word) {t k : Nat} (e : Tri3) (h : k / 3 ≠ t) :
    (m.writeTri t e).read k = m.read k := by
  simp only [Memory.writeTri, triKey, TriLane.index]
  rw [Memory.read_write_ne _ _ (by omega), Memory.read_write_ne _ _ (by omega),
    Memory.read_write_ne _ _ (by omega)]

/-- The three words of the written entry. -/
theorem Memory.read_writeTri_self (m : Memory Word) (t : Nat) (e : Tri3) :
    (m.writeTri t e).read (triKey t .a) = some e.a ∧ (m.writeTri t e).read (triKey t .b) = some e.b ∧
      (m.writeTri t e).read (triKey t .c) = some e.c := by
  simp [Memory.writeTri, Memory.read_write, triKey, TriLane.index]

end Sys2Proof.Machine
end

