-- ==== Sys2Proof/Laws/Ops.lean ====
section
/-! SUPPORT. What each shared operation does, said once: reading SRC, the register map, the sequencers' loops. -/

namespace Sys2Proof.Machine

/-! ### SRC -/

/-- A wide read depends on nothing but the bytes it reads. -/
theorem State.memRead_congr {s s' : State} {n off : Nat}
    (h : ∀ a, off ≤ a → a < off + n → s.srcByte a = s'.srcByte a) : s.memRead off n = s'.memRead off n := by
  induction n generalizing off with
  | zero => rfl
  | succ n ih =>
    simp only [State.memRead]
    rw [h off (le_refl _) (by omega), ih fun a h1 h2 => h a (by omega) (by omega)]

theorem State.memRead_lt (s : State) (off n : Nat) : s.memRead off n < 256 ^ n := by
  induction n generalizing off with
  | zero => simp [State.memRead]
  | succ n ih =>
    have h1 := ih (off + 1)
    have h2 := (s.srcByte off).isLt
    simp only [State.memRead, pow_succ]
    omega

/-- A byte that SRC holds reads the same whatever the draw. -/
theorem State.srcByte_of_read {s : State} {a : Nat} {b : Byte} (h : s.src.read a = some b) : s.srcByte a = b := by
  simp [State.srcByte, h]

theorem State.srcByte_congr {s s' : State} (hs : s.src = s'.src) (hd : s.draws = s'.draws) (a : Nat) :
    s.srcByte a = s'.srcByte a := by
  simp [State.srcByte, hs, hd]

/-! ### The register map -/

theorem Reg.ofOffset_offset (r : Reg) : Reg.ofOffset r.offset = some r := by
  cases r with
  | col i => revert i; decide
  | _ => rfl

theorem Reg.offset_of_ofOffset {off : Nat} {r : Reg} (h : Reg.ofOffset off = some r) : r.offset = off := by
  have := List.find?_some h
  simpa using this

theorem Reg.legal_offset (r : Reg) : legalRegOffset r.offset = true := by
  cases r with
  | col i => revert i; decide
  | _ => rfl

/-- A host write of a register changes no memory, no sequencer and nothing of the model's own. -/
theorem State.writeReg_frame (s : State) (r : Reg) (v : Word) :
    (s.writeReg r v).src = s.src ∧ (s.writeReg r v).pix = s.pix ∧ (s.writeReg r v).tri = s.tri ∧
      (s.writeReg r v).seq = s.seq ∧ (s.writeReg r v).draws = s.draws ∧
      (s.writeReg r v).pending = s.pending ∧ (s.writeReg r v).readLog = s.readLog := by
  cases r <;> simp [State.writeReg]

/-! ### BCC -/

/-- The two reports of a block-info word agree with its decoding: the fields read from the word are the fields
of the instruction it decodes to. -/
theorem decodeInfo_block (w : Word) :
    (∃ f, decodeInfo w = .infoInd f ∧ blockOfWord w = indBlock f) ∨
      (∃ f, decodeInfo w = .infoDiff f ∧ blockOfWord w = diffBlock f) := by
  by_cases h : w.getLsbD 1 = true
  · exact .inr ⟨decodeDiff w, by simp only [decodeInfo, h, if_true], by simp only [blockOfWord, h, if_true]⟩
  · exact .inl ⟨decodeInd w, if_neg h, if_neg h⟩

/-! ### TXD's loop -/

/-- What one block changes. -/
theorem State.decodeToPix_eq (cfg : Config) (s : State) (q : TxdSeq) (k : BlockInfo) :
    s.decodeToPix cfg q k =
      { s with
        pix := placeBlock q k (s.memRead32 (q.pixOffset cfg)) s.pix
        seq := .txd { q with n := q.n + 1 }
        status := if k.oor then s.status ||| BitVec.twoPow 32 StatusFlag.diffoor.bit else s.status
        draws := s.draws + 1 } := by
  cases h : k.oor <;> simp [State.decodeToPix, State.setFlagIf, State.setFlag, State.nextDraw, h]

theorem State.txdBlocks_succ (cfg : Config) (s : State) (k : Nat) :
    s.txdBlocks cfg (k + 1) = (s.txdBlocks cfg k).txdBlock cfg := by
  induction k generalizing s with
  | zero => rfl
  | succ k ih => exact ih (s.txdBlock cfg)

/-- `k` blocks change PIX, `DIFFOOR`, the block counter and the draws, and nothing else. -/
theorem State.txdBlocks_frame (cfg : Config) (k : Nat) {s : State} {q : TxdSeq} (h : s.seq = .txd q) :
    ∃ pix status, s.txdBlocks cfg k =
        { s with pix := pix, status := status, seq := .txd { q with n := q.n + k }, draws := s.draws + k } ∧
      (status = s.status ∨ status = s.status ||| BitVec.twoPow 32 StatusFlag.diffoor.bit) := by
  induction k with
  | zero =>
    refine ⟨s.pix, s.status, ?_, .inl rfl⟩
    cases s
    simp_all [State.txdBlocks]
  | succ k ih =>
    obtain ⟨pix, status, heq, hst⟩ := ih
    rw [State.txdBlocks_succ, heq]
    simp only [State.txdBlock, State.decodeToPix_eq]
    refine ⟨_, _, rfl, ?_⟩
    split
    · right
      rcases hst with rfl | rfl
      · rfl
      · rw [BitVec.or_assoc, BitVec.or_self]
    · exact hst

/-- The entry a position is written to is inside the image (R161, R162). -/
theorem TxdSeq.entry_lt {q : TxdSeq} (hs : q.s = q.w / 8) (hw : 8 ≤ q.w) (hh : 0 < q.h) {i : Nat} (hi : i < 16) :
    q.entry i < q.w * q.h := by
  have hx : q.x i < q.w := by
    have h0 : 0 < q.s := by omega
    have h1 := Nat.mod_lt (q.n / 4) h0
    simp only [TxdSeq.x]
    omega
  obtain ⟨h', hh'⟩ : ∃ h', q.h = h' + 1 := ⟨q.h - 1, by omega⟩
  have hy : (q.h - q.y i - 1) * q.w ≤ h' * q.w := Nat.mul_le_mul_right _ (by omega)
  have : q.w * q.h = h' * q.w + q.w := by rw [hh']; ring
  simp only [TxdSeq.entry]
  omega

/-- The memory after the sixteen pixels of a block keeps its canonical form. -/
theorem placeBlock_wf {size : Nat} {q : TxdSeq} (k : BlockInfo) (pixWord : Word) {m : Memory Word}
    (h : m.wf size) (he : ∀ i < 16, q.entry i < size) : (placeBlock q k pixWord m).wf size := by
  suffices H : ∀ (l : List Nat) (m : Memory Word), (∀ i ∈ l, q.entry i < size) → m.wf size →
      (l.foldl (fun m i => m.write (q.entry i) (rgba8 (blockColour k pixWord i))) m).wf size from
    H _ m (fun i hi => he i (List.mem_range.mp hi)) h
  intro l
  induction l with
  | nil => exact fun _ _ h => h
  | cons i l ih =>
    intro m hl hm
    exact ih _ (fun j hj => hl j (List.mem_cons_of_mem _ hj))
      (Memory.wf_write _ hm (hl i List.mem_cons_self))

/-- An entry that no position of the block is placed at is as before. -/
theorem placeBlock_read_ne (q : TxdSeq) (k : BlockInfo) (pixWord : Word) (m : Memory Word) {p : Nat}
    (h : ∀ i < 16, q.entry i ≠ p) : (placeBlock q k pixWord m).read p = m.read p := by
  suffices H : ∀ (l : List Nat) (m : Memory Word), (∀ i ∈ l, q.entry i ≠ p) →
      (l.foldl (fun m i => m.write (q.entry i) (rgba8 (blockColour k pixWord i))) m).read p = m.read p from
    H _ m fun i hi => h i (List.mem_range.mp hi)
  intro l
  induction l with
  | nil => exact fun _ _ => rfl
  | cons i l ih =>
    intro m hl
    rw [List.foldl_cons, ih _ fun j hj => hl j (List.mem_cons_of_mem _ hj),
      Memory.read_write_ne _ _ (hl i List.mem_cons_self).symm]

/-! ### SID's loop -/

/-- Priming: a short prime ends the command, else the window is loaded. -/
theorem State.sidPrime_cases (s : State) (cur nt : Nat) :
    (s.idxCount.toNat - cur < 2 ∧ s.sidPrime cur nt = ((s.setFlag .shortprime).sidEnd nt).nextDraw) ∨
      (2 ≤ s.idxCount.toNat - cur ∧ s.sidPrime cur nt =
        { s with
          seq := .sid ⟨s.streamValue cur, s.streamValue (cur + 1), true, cur + 2, nt⟩
          draws := s.draws + 1 }) := by
  unfold State.sidPrime
  split_ifs with h
  · exact .inl ⟨h, rfl⟩
  · exact .inr ⟨by omega, rfl⟩

/-- One pass of SID's loop is a restart, an emission or the end (R194). -/
theorem State.sidElement_cases (cfg : Config) {s : State} {q : SidSeq} (h : s.seq = .sid q) :
    (q.cur < s.idxCount.toNat ∧ s.streamValue q.cur = sentinel ∧ s.sidElement cfg = s.sidRestart q) ∨
      (q.cur < s.idxCount.toNat ∧ s.streamValue q.cur ≠ sentinel ∧
        s.sidElement cfg = s.sidEmit cfg q (s.streamValue q.cur)) ∨
      (s.idxCount.toNat ≤ q.cur ∧ s.sidElement cfg = s.sidEnd q.nt) := by
  unfold State.sidElement
  rw [h]
  dsimp only
  split_ifs with h1 h2
  · exact .inl ⟨h1, h2, rfl⟩
  · exact .inr (.inl ⟨h1, h2, rfl⟩)
  · exact .inr (.inr ⟨by omega, rfl⟩)

theorem State.sidElement_idle (cfg : Config) {s : State} (h : s.seq = .idle) : s.sidElement cfg = s := by
  simp [State.sidElement, h]

theorem State.sidElements_idle (cfg : Config) (k : Nat) {s : State} (h : s.seq = .idle) :
    s.sidElements cfg k = s := by
  induction k with
  | zero => rfl
  | succ k ih => simp [State.sidElements, State.sidElement_idle cfg h, ih]

theorem State.sidElements_succ (cfg : Config) (s : State) (k : Nat) :
    s.sidElements cfg (k + 1) = (s.sidElements cfg k).sidElement cfg := by
  induction k generalizing s with
  | zero => rfl
  | succ k ih => exact ih (s.sidElement cfg)

/-- What emitting one triangle changes. -/
theorem State.sidEmit_eq (cfg : Config) (s : State) (q : SidSeq) (f3 : Half) :
    s.sidEmit cfg q f3 =
      { s with
        tri := s.tri.writeTri q.nt (rebaseTri s.baseIndex (windTriangle cfg q.reverse q.f1 q.f2 f3))
        seq := .sid ⟨q.f2, f3, !q.reverse, q.cur + 1, q.nt + 1⟩
        status :=
          if triBelowBase s.baseIndex (windTriangle cfg q.reverse q.f1 q.f2 f3) then
            s.status ||| BitVec.twoPow 32 StatusFlag.idxneg.bit
          else s.status
        draws := s.draws + 1 } := by
  cases h : triBelowBase s.baseIndex (windTriangle cfg q.reverse q.f1 q.f2 f3) <;>
    simp [State.sidEmit, State.setFlagIf, State.setFlag, State.nextDraw, h]

/-! ### The parameters -/

/-- The two pixel-type codes are distinct (R7). -/
theorem config_ptAlpha_ne_ptOpaque : config.ptAlpha ≠ config.ptOpaque := by
  simp only [config]
  split_ifs with h
  · generalize Config.freePtOpaque = b
    revert b
    decide
  · exact h

end Sys2Proof.Machine
end

