-- ==== Sys2Proof/Laws/PerInstr.lean ====
section
/-! SUPPORT. Facts about instructions as syntax, one lemma per constructor of `Instr`. -/

/-- The bits of a well-formed instruction fit its format's bytes (30_encoding.md R80, R83, R98). -/
def Sys2Proof.Laws.EncodingFits.Statement (i : Sys2Proof.Instr) : Prop :=
  i.wellFormed = true → (Sys2Proof.encode i).bits < 2 ^ (8 * (Sys2Proof.encode i).format.bytes)

namespace Sys2Proof.Laws.EncodingFits

theorem nop : Statement .nop := fun _ => by decide

theorem decblk : Statement .decblk := fun _ => by decide

theorem dectex : Statement .dectex := fun _ => by decide

theorem decstrip : Statement .decstrip := fun _ => by decide

theorem clr : Statement .clr := fun _ => by decide

theorem infoInd (f : IndInfo) : Statement (.infoInd f) := by
  intro h
  have hf := Bool.toNat_lt f.flip
  simp only [Instr.wellFormed, IndInfo.wellFormed, Bool.and_eq_true, decide_eq_true_eq] at h
  simp only [encode, encodeInd, infoLayout, Format.bytes]
  omega

theorem infoDiff (f : DiffInfo) : Statement (.infoDiff f) := by
  intro h
  have hf := Bool.toNat_lt f.flip
  simp only [Instr.wellFormed, DiffInfo.wellFormed, Bool.and_eq_true, decide_eq_true_eq] at h
  simp only [encode, encodeDiff, infoLayout, Format.bytes]
  omega

theorem idxRestart : Statement .idxRestart := fun _ => by decide

end Sys2Proof.Laws.EncodingFits
end

