-- ==== Sys2Proof/Tests/Slice0.lean ====
section
/-! SUPPORT. Tests. Expected results are those of 95_test_vectors.md (the vector is named) or are written out from
the rule named; the witness theorems give, for every obligation with hypotheses, a state that meets them. -/

namespace Sys2Proof.Tests

open Sys2Proof.Machine Sys2Proof.Reference

/-! ### WellFormed: an ill-formed term for each check -/

def goodInd : IndInfo := { r1 := 15, r2 := 15, g1 := 15, g2 := 15, b1 := 15, b2 := 15, sel1 := 7, sel2 := 7, flip := true }

def goodDiff : DiffInfo :=
  { r := 31, dr := 7, g := 31, dg := 7, b := 31, db := 7, sel1 := 7, sel2 := 7, flip := true }

theorem test_wellFormed_accepts : (Instr.infoInd goodInd).wellFormed = true ∧
    (Instr.infoDiff goodDiff).wellFormed = true := by decide

theorem test_wellFormed_refuses_ind :
    [{ goodInd with r1 := 16 }, { goodInd with r2 := 16 }, { goodInd with g1 := 16 }, { goodInd with g2 := 16 },
      { goodInd with b1 := 16 }, { goodInd with b2 := 16 }, { goodInd with sel1 := 8 },
      { goodInd with sel2 := 8 }].all (fun f => !(Instr.infoInd f).wellFormed) = true := by decide

theorem test_wellFormed_refuses_diff :
    [{ goodDiff with r := 32 }, { goodDiff with g := 32 }, { goodDiff with b := 32 }, { goodDiff with dr := 8 },
      { goodDiff with dg := 8 }, { goodDiff with db := 8 }, { goodDiff with sel1 := 8 },
      { goodDiff with sel2 := 8 }].all (fun f => !(Instr.infoDiff f).wellFormed) = true := by decide

/-! ### Decode: words written out from R81, R86, R87, R98 -/

theorem test_decode_nop : decodeTableWord 32 0x00000000 = some .nop := by decide

theorem test_decode_decblk : decodeTableWord 32 0x00000001 = some .decblk := by decide

theorem test_decode_dectex : decodeTableWord 32 0x00000002 = some .dectex := by decide

theorem test_decode_decstrip : decodeTableWord 32 0x00000003 = some .decstrip := by decide

theorem test_decode_clr : decodeTableWord 32 0x0000000F = some .clr := by decide

/-- 95_test_vectors.md 2.2: `0xF0813C1D`. -/
theorem test_decode_infoInd : decodeBytes .info32 [0x1D#8, 0x3C#8, 0x81#8, 0xF0#8, 0xAA#8] =
    .ok (.infoInd { r1 := 15, r2 := 0, g1 := 8, g2 := 1, b1 := 3, b2 := 12, sel1 := 0, sel2 := 7, flip := true },
      [0xAA#8]) := by decide

/-- 95_test_vectors.md 2.2: `0x0CF3071E`. -/
theorem test_decode_infoDiff : decodeInfo 0x0CF3071E#32 =
    .infoDiff { r := 1, dr := 4, g := 30, dg := 3, b := 0, db := 7, sel1 := 0, sel2 := 7, flip := false } := by
  decide

theorem test_decode_idxRestart : decodeTableWord 16 0xFFFF = some .idxRestart := by decide

/-- R82: vector X7's word and vector X6's. -/
theorem test_decode_refuses : decodeCommand 0x00000101#32 = .error (.illegalCommand 0x101#32) ∧
    decodeCommand 0x00000004#32 = .error (.illegalCommand 0x4#32) ∧
    decodeBytes .cmdw [0x01#8, 0x00#8] = .error .truncated ∧
    decodeTableWord 16 0xFFFE = none := by decide

/-! ### Meanings -/

/-- The state an outcome goes on in. -/
def after (o : Host.Outcome State Fault Refusal) : Option State :=
  match o with
  | .next s => some s
  | _ => none

def statusOf (o : Host.Outcome State Fault Refusal) : Option Word := (after o).map (·.status)

/-- Vector X3. -/
theorem test_nop_keeps_done : statusOf (exec .nop { State.reset with status := 0x13 }) = some 0x13#32 := by decide

/-- Vector X4. -/
theorem test_clr : (after (exec .clr { State.reset with status := 0x52, errcode := 3 })).map
    (fun s => (s.status, s.errcode)) = some (0x00#32, 0x00#32) := by decide

/-- Vector X7: bits 31:8 are not zero. -/
theorem test_illegal_command :
    (after (step { State.reset with pending := [.regWrite .w32 0x00#32 0x00000101#32] })).map
      (fun s => (s.status, s.errcode, s.pending)) = some (0x02#32, 0x06#32, []) := by decide

def colAfter (info pix : Word) : Option (List Word) :=
  (after (exec .decblk { State.reset with blkInfo := info, blkPix := pix })).map (·.col.toList)

/-- Vector B2: both clamps, all four columns of rows 0 and 7. -/
theorem test_decblk_individual : colAfter 0xF0813C1C#32 0xCCCCAAAA#32 =
    some [0x358AFF#32, 0x3B90FF#32, 0x3186FD#32, 0x2B80F7#32, 0x358AFF#32, 0x3B90FF#32, 0x3186FD#32, 0x2B80F7#32,
      0xFB402F#32, 0xFFC8B7#32, 0x9D0000#32, 0x150000#32, 0xFB402F#32, 0xFFC8B7#32, 0x9D0000#32, 0x150000#32] := by
  decide

/-- Vector B8: sums -3, 33, -1; with its status. -/
theorem test_decblk_out_of_range : colAfter 0x0CF3071E#32 0xCCCCAAAA#32 =
    some [0x02F90A#32, 0x08FF10#32, 0x00F506#32, 0x00EF00#32, 0x02F90A#32, 0x08FF10#32, 0x00F506#32, 0x00EF00#32,
      0x26FF16#32, 0xAEFF9E#32, 0x00E100#32, 0x005900#32, 0x26FF16#32, 0xAEFF9E#32, 0x00E100#32, 0x005900#32] ∧
    statusOf (exec .decblk { State.reset with blkInfo := 0x0CF3071E }) = some 0x11#32 := by decide

/-- Bytes held by SRC from offset 0 upwards. -/
def srcOf (bs : List Byte) : Memory Byte := (List.range bs.length).zip bs

/-- The example codes of 00_scope.md R8. -/
def exampleConfig : Config := { config with ptOpaque := 0x0B, ptAlpha := 0x0C }

/-- The container of vector T1, with a pixel-type code. -/
def t1Bytes (pt : Byte) : List Byte :=
  [0x54, 0x45, 0x58, 0x00, 0xA5, 0x00, 0x00, 0x03, 0x01, 0x02, 0x40, 0x00, 0x00, pt, 0x00, 0x00] ++
  [0x00, 0x00, 0x00, 0x00] ++
  [0x00, 0x00, 0x00, 0x00, 0x1C, 0x3C, 0x81, 0xF0] ++ [0xAA, 0xAA, 0xCC, 0xCC, 0x1D, 0x3C, 0x81, 0xF0] ++
  [0xAA, 0xAA, 0xCC, 0xCC, 0x76, 0xFC, 0x52, 0xA5] ++ [0x00, 0x00, 0xFF, 0xFF, 0xFC, 0xF0, 0xF0, 0xF0]

def t1State (pt : Byte) (len : Word) : State := { State.reset with src := srcOf (t1Bytes pt), srcLen := len }

/-- Vector T1: one pixel of each block (rows 7, 4, 0 and 0 of the printed table), and the counters. -/
theorem test_dectex_image :
    let t := dectexWith exampleConfig (t1State 0x0B 52)
    [56, 36, 0, 7].map t.pix.read =
      [some 0xFF358AFF#32, some 0xFF150000#32, some 0xFFD5287B#32, some 0xFF000000#32] ∧
    t.pix.length = 64 ∧ t.status = 0x01#32 ∧ t.texBlocks = 4#32 ∧ t.texGeom = 0x00400201#32 := by decide

/-- Vectors T6, T9 and T14, and T10: the code of the first failing check. -/
theorem test_dectex_faults :
    [t1State 0x0B 15, t1State 0x0D 16, t1State 0x0B 51].map (fun s => (dectexWith exampleConfig s).errcode) =
      [0x03#32, 0x01#32, 0x03#32] ∧
    (dectexWith exampleConfig { t1State 0x0B 52 with src := (t1State 0x0B 52).src.write 9 0x03 }).errcode =
      0x05#32 := by decide

def stripState (vals : List Byte) (n : Word) (base : Word) : State :=
  { State.reset with src := srcOf vals, srcLen := n + n, idxCount := n, baseIndex := base }

def s1Bytes : List Byte := [0x00, 0x00, 0x01, 0x00, 0x02, 0x00, 0x03, 0x00, 0x04, 0x00]

def trisAfter (s : State) : Option (List Tri3 × Word) :=
  (after (exec .decstrip s)).map fun t => ((List.range t.triCount.toNat).map t.triEntry, t.status)

/-- Vector S1: the winding. -/
theorem test_decstrip_winding : trisAfter (stripState s1Bytes 5 0) =
    some ([⟨0, 1, 2⟩, ⟨1, 3, 2⟩, ⟨2, 3, 4⟩], 0x01#32) := by decide

/-- Vector S15: a sentinel taken into the window, then a second restart. -/
theorem test_decstrip_restart :
    trisAfter (stripState [0x00, 0x00, 0x01, 0x00, 0x02, 0x00, 0xFF, 0xFF, 0xFF, 0xFF, 0x05, 0x00, 0xFF, 0xFF,
      0x07, 0x00, 0x08, 0x00, 0x09, 0x00] 10 0) = some ([⟨0, 1, 2⟩, ⟨7, 8, 9⟩], 0x01#32) := by decide

/-- Block 0 of vector T1 (vector B1) as the first block of an 8 by 8 image. -/
theorem test_infoInd_places_a_block :
    (after (exec (decodeInfo 0xF0813C1C#32)
      { t1State 0x0B 52 with seq := .txd { n := 0, w := 8, h := 8, bpb := 8, pbase := 20, s := 1 } })).map
      (fun t => ([56, 59, 32, 60].map t.pix.read, t.seq)) =
    some ([some 0xFF358AFF#32, some 0xFFFB402F#32, some 0xFF358AFF#32, none],
      .txd { n := 1, w := 8, h := 8, bpb := 8, pbase := 20, s := 1 }) := by decide

/-- Vector B5 through the block-info word itself. -/
theorem test_infoDiff_decodes_to_col :
    (after (exec (decodeInfo 0xA552FC77#32) { State.reset with blkPix := 0xFFFF0000 })).map
      (fun t => (t.col.toList.take 4, t.status)) =
    some ([0xF24598#32, 0xF24598#32, 0xC64B74#32, 0xC64B74#32], 0x00#32) := by decide

def s2State : State :=
  { stripState [0x00, 0x00, 0x01, 0x00, 0xFF, 0xFF, 0x05, 0x00, 0x06, 0x00, 0x07, 0x00] 6 0 with
    seq := .sid { f1 := 0, f2 := 1, reverse := true, cur := 2, nt := 0 } }

/-- Vector S2 at its sentinel: the window becomes (5, 6). -/
theorem test_idxRestart : (after (exec .idxRestart s2State)).map (·.seq) =
    some (.sid { f1 := 5, f2 := 6, reverse := true, cur := 5, nt := 0 }) := by decide

/-- Vector S7 at its sentinel: no value is left. -/
theorem test_idxRestart_short :
    (after (exec .idxRestart { s2State with idxCount := 3 })).map (fun t => (t.seq, t.status)) =
    some (.idle, 0x41#32) := by decide

/-! ### The register map (vectors X11 to X14) -/

theorem test_register_writes :
    (after (step { State.reset with pending := [.regWrite .w32 0x18#32 0xFFFFFFFF#32] })).map (·.blkCtl) =
      some 1#32 ∧
    (after (step { State.reset with pending := [.regWrite .w32 0x8C#32 0x12345678#32] })).map (·.col.toList) =
      some (State.reset.col.toList) ∧
    (after (step { State.reset with pending := [.regRead .w32 0x44#32] })).map (·.readLog) =
      some [.word 0#32] := by decide

/-! ### Witnesses: for every obligation with hypotheses, states and operands that meet them together -/

def hostState (ts : List Transaction) : State := { State.reset with pending := ts }

/-- An 8 by 8 opaque container with the engine's own code, whole (T1). -/
def texState : State := t1State config.ptOpaque 52

/-- The same with block 2 out of range (T17). -/
def texStateOor : State :=
  { texState with src := texState.src.writeBytes 40 [0x1E, 0x07, 0xF3, 0x0C] }

/-- A byte that is neither of the two codes. -/
def otherType : Byte :=
  if config.ptAlpha = config.ptOpaque + 1 then config.ptOpaque + 2 else config.ptOpaque + 1

theorem otherType_ne : otherType ≠ config.ptOpaque ∧ otherType ≠ config.ptAlpha := by
  unfold otherType
  generalize config.ptAlpha = a
  generalize config.ptOpaque = b
  split_ifs with h
  · subst h
    constructor <;> bv_omega
  · exact ⟨by bv_omega, fun h' => h h'.symm⟩

theorem pixType_t1State (pt : Byte) (len : Word) : pixType (t1State pt len) = pt := by
  have h : (t1State pt len).memRead32 12 = BitVec.ofNat 32 (0 + 256 * (pt.toNat + 256 * (0 + 256 * (0 + 256 * 0)))) :=
    rfl
  rw [pixType, h]
  apply BitVec.eq_of_toNat_eq
  have := pt.isLt
  simp [Nat.shiftRight_eq_div_pow]
  omega

theorem typeKnown_texState (len : Word) : TypeKnown (t1State config.ptOpaque len) :=
  .inl (pixType_t1State _ _)

theorem bpb_t1State (len : Word) : bpb (t1State config.ptOpaque len) = 8 := by
  simp [bpb, pixType_t1State]

theorem size_t1State (pt : Byte) (len : Word) :
    width (t1State pt len) = 8 ∧ height (t1State pt len) = 8 ∧ mips (t1State pt len) = 1 := by
  have h : (t1State pt len).memRead32 8 =
      BitVec.ofNat 32 ((0x01#8).toNat + 256 * ((0x02#8).toNat + 256 * ((0x40#8).toNat + 256 * ((0x00#8).toNat + 256 * 0)))) :=
    rfl
  simp only [width, height, mips, h]
  decide

theorem sizeGood_t1State (pt : Byte) (len : Word) : SizeGood (t1State pt len) := by
  obtain ⟨hw, hh, -⟩ := size_t1State pt len
  simp [SizeGood, hw, hh]

theorem needed_t1State (len : Word) :
    pbase (t1State config.ptOpaque len) + nblk (t1State config.ptOpaque len) * bpb (t1State config.ptOpaque len) =
      52 := by
  obtain ⟨hw, hh, hm⟩ := size_t1State config.ptOpaque len
  simp [pbase, nblk, bpb_t1State, hw, hh, hm]

/-- Meets `DectexEndState` (no block out of range), `DectexWritesTheImage`, `EveryPixelIsPlacedExactlyOnce` and
`TextureStepsReachTheAtomicResult`. -/
theorem witness_checksPass : ChecksPass texState ∧ ∀ n < nblk texState, outOfRange (infoWord texState n) = false := by
  have hn : nblk texState = 4 := rfl
  refine ⟨⟨by decide, typeKnown_texState _, sizeGood_t1State _ _, ?_⟩, fun n hn' => ?_⟩
  · exact le_of_eq (needed_t1State 52)
  · rw [hn] at hn'
    have hb : bpb texState = 8 := bpb_t1State 52
    simp only [infoWord, colourBytes, hb]
    interval_cases n <;> rfl

/-- Meets `DectexEndState` where a block is out of range. -/
theorem witness_blockOutOfRange : ChecksPass texStateOor ∧ ∃ n < nblk texStateOor,
    outOfRange (infoWord texStateOor n) = true := by
  have ht : pixType texStateOor = config.ptOpaque := pixType_t1State config.ptOpaque 52
  have hb : bpb texStateOor = 8 := by simp [bpb, ht]
  have hn : nblk texStateOor = 4 := rfl
  have hp : pbase texStateOor = 20 := rfl
  refine ⟨⟨by decide, .inl ht, sizeGood_t1State config.ptOpaque 52, ?_⟩, 2, by rw [hn]; omega, ?_⟩
  · have : texStateOor.srcLen.toNat = 52 := rfl
    simp [Complete, hb, hn, hp, this]
  · simp only [infoWord, colourBytes, hb, hp]
    rfl

/-- Meets `DectexWithoutAHeaderIsTruncated` and the first clause of `DectexReportsTheFirstFailingCheck` (T6: 15). -/
theorem witness_shortHeader : (t1State config.ptOpaque 15).srcLen.toNat < 16 := by decide

/-- Meets `DectexUnsupportedPixelType` at the boundary of the header check, with the payload short too (T9). -/
theorem witness_unknownType : 16 ≤ (t1State otherType 16).srcLen.toNat ∧ ¬TypeKnown (t1State otherType 16) := by
  refine ⟨by decide, ?_⟩
  rw [TypeKnown, pixType_t1State]
  exact fun h => h.elim otherType_ne.1 otherType_ne.2

/-- Meets `DectexBadGeometry` (T11: width 0). -/
theorem witness_badGeometry :
    let s := { texState with src := texState.src.write 9 0x00 }
    16 ≤ s.srcLen.toNat ∧ TypeKnown s ∧ ¬SizeGood s := by
  refine ⟨by decide, .inl (pixType_t1State config.ptOpaque 52), fun h => ?_⟩
  have hw : width { texState with src := texState.src.write 9 0x00 } = 0 := rfl
  have := h.2.2.1
  omega

/-- Meets `DectexShortPayloadForgetsTheImage`, one byte short (T14), and has an entry on each side of `W * H`. -/
theorem witness_shortPayload :
    let s := t1State config.ptOpaque 51
    16 ≤ s.srcLen.toNat ∧ TypeKnown s ∧ SizeGood s ∧ ¬Complete s ∧
      63 < width s * height s ∧ width s * height s ≤ 64 := by
  refine ⟨by decide, typeKnown_texState _, sizeGood_t1State _ _, ?_, by decide, by decide⟩
  rw [Complete, needed_t1State]
  decide

/-- Meets `DectexUsesNothingElseOfSrc`: another magic byte, and a longer `SRC_LEN`. -/
theorem witness_otherContainer : ∃ t m len, m ≠ texState.src ∧ ChecksPass texState ∧
    pbase texState + nblk texState * bpb texState ≤ BitVec.toNat (len : Word) ∧
    (∀ a, (8 ≤ a ∧ a < 12) ∨ a = 13 ∨
      (∃ n < nblk texState, colourBytes texState n ≤ a ∧ a < colourBytes texState n + 8) →
      Memory.read m a = texState.src.read a) ∧
    exec .dectex texState = .next t := by
  refine ⟨_, texState.src.write 0 0x00, 60, ?_, witness_checksPass.1, ?_, fun a ha => ?_, rfl⟩
  · intro h
    have := congrArg (fun m => Memory.read m 0) h
    revert this
    decide
  · exact le_trans (le_of_eq (needed_t1State 52)) (by decide)
  · refine Memory.read_write_ne _ _ ?_
    have hp : pbase texState = 20 := rfl
    rcases ha with h | h | ⟨n, -, h, -⟩
    · omega
    · omega
    · simp only [colourBytes, hp] at h
      omega

/-- Meets `IndividualInfoWordDecodesItsBlock` and `DifferentialInfoWordDecodesItsBlock`: fields at the ends of
their ranges, TXD at the last block of an image, and no block to decode. -/
theorem witness_infoWords :
    let q : TxdSeq := { n := 3, w := 8, h := 8, bpb := 8, pbase := 20, s := 1 }
    goodInd.wellFormed = true ∧ goodDiff.wellFormed = true ∧ q.Legal texState.srcLen.toNat ∧ q.n < q.nblk ∧
    ∀ q' : TxdSeq, State.reset.seq = .txd q' → q'.nblk ≤ q'.n :=
  ⟨by decide, by decide,
    { geometry := by decide, width := by decide, height := by decide, superTiles := by decide
      blockBytes := .inl rfl, payload := by decide, position := by decide, container := by decide },
    by decide, fun _ h => nomatch h⟩

/-- Meets `EveryBlockInfoWordIsLegal`'s two modes, `IndividualModeBaseColours` and `DifferentialModeBaseColours`. -/
theorem witness_modes : field 0xFFFFFFFD#32 1 1 = 0 ∧ field 0x00000002#32 1 1 = 1 := by decide

/-- Meets `ModifierIsOneOfTheRowsFour` and `SubBlocksAreHalvesOfTheTile` at the last position. -/
theorem witness_position : 15 < 16 := by decide

/-- Meets `DecodeInvertsEncode`. -/
theorem witness_wellFormed : (Instr.infoDiff goodDiff).wellFormed = true ∧ Instr.idxRestart.wellFormed = true := by
  decide

/-- Meets `CommandWriteRunsTheCommand` and `EveryCommandWriteEndsOneOfThreeWays`. -/
theorem witness_commandWrite :
    (hostState [.regWrite .w32 0x00#32 0x0F#32, .reset]).seq = .idle ∧
    (hostState [.regWrite .w32 0x00#32 0x0F#32, .reset]).pending = .regWrite .w32 0x00#32 0x0F#32 :: [.reset] ∧
    decodeCommand 0x0F#32 = .ok .clr := by decide

/-- Meets `IllegalCommandIsReported` by each of its two grounds. -/
theorem witness_illegalCommand :
    (hostState [.regWrite .w32 0x00#32 0x100#32]).pending = .regWrite .w32 0x00#32 0x100#32 :: [] ∧
    field 0x100#32 8 24 ≠ 0 ∧ field 0x04#32 8 24 = 0 ∧ field 0x04#32 0 8 ∉ [0x00, 0x01, 0x02, 0x03, 0x0F] := by
  decide

/-- Meets `StreamElementRunsAsDecoded`: TXD at a block, SID at a sentinel and at a vertex index. -/
theorem witness_streamElement :
    let q : TxdSeq := { n := 3, w := 8, h := 8, bpb := 8, pbase := 20, s := 1 }
    let r : SidSeq := { f1 := 0, f2 := 1, reverse := true, cur := 2, nt := 0 }
    q.n < q.nblk ∧ s2State.seq = .sid r ∧ r.cur < s2State.idxCount.toNat ∧
    decodeIndex (s2State.memRead16 (2 * r.cur)) = .ok .idxRestart ∧
    decodeIndex (s2State.memRead16 (2 * 5)) = .error (.vertexIndex 7#16) := by decide

/-- Meets `PlacedTableWordRunsAsDecoded` in each format. -/
theorem witness_tableWords : decodeTableWord 32 3 = some .decstrip ∧
    decodeTableWord 8 2 = some (decodeInfo 2) ∧ decodeTableWord 16 0xFFFF = some .idxRestart := by decide

/-- Meets `AlphaOperandsHaveNoEffect`, `InstructionsWriteOnlyTheirResults`, `StickyFlagsAreOnlyGained` and
`StatusIsNoInput` with an instruction that has results. -/
theorem witness_execNext : Instr.decblk ≠ .clr ∧ ∃ t, exec .decblk { State.reset with blkInfo := 0x0CF3071E } = .next t ∧
    t.hasFlag .diffoor = true := ⟨by decide, _, rfl, by decide⟩

/-- Meets the last clause of `ClrClearsStatusAndErrcodeOnly` with a sticky flag. -/
theorem witness_clr :
    let s := { State.reset with status := 0x52, errcode := 3 }
    ∃ t, StatusFlag.shortprime ≠ .done ∧ exec .clr s = .next t ∧ s.hasFlag .shortprime = true ∧
      t.hasFlag .shortprime = false := ⟨_, by decide, rfl, by decide, by decide⟩

/-- Meets the last clause of `DectexBadGeometry`. -/
theorem witness_goodGeometry : SizeGood texState := sizeGood_t1State config.ptOpaque 52

/-- Meets `DecstripBeyondSrcLenIsTruncated` at vector S24: `2 N = 2^32` does not wrap. -/
theorem witness_stripBeyond :
    let s := { State.reset with idxCount := 0x80000000#32 }
    s.srcLen.toNat < 2 * s.idxCount.toNat := by decide

/-- Meets `DecstripTooShortToPrime` at both of its values (S3, S4). -/
theorem witness_tooShort :
    2 * State.reset.idxCount.toNat ≤ State.reset.srcLen.toNat ∧ State.reset.idxCount.toNat < 2 ∧
    2 * (stripState [0x07, 0x00] 1 0).idxCount.toNat ≤ (stripState [0x07, 0x00] 1 0).srcLen.toNat ∧
    (stripState [0x07, 0x00] 1 0).idxCount.toNat < 2 := by decide

/-- Meets `DecstripEmitsTheStripTriangles`, `StripStepsReachTheAtomicResult` and `DecstripReadsOnlyItsStream` (S22: a
byte beyond the stream differs). -/
theorem witness_strip :
    let s := { stripState s1Bytes 4 0 with srcLen := 10 }
    let m := s.src.write 8 0xFF
    2 * s.idxCount.toNat ≤ s.srcLen.toNat ∧ 2 ≤ s.idxCount.toNat ∧ m ≠ s.src ∧
    (∀ a < 2 * s.idxCount.toNat, m.read a = s.src.read a) ∧ 2 * s.idxCount.toNat ≤ (8#32).toNat ∧
    ∃ t, exec .decstrip s = .next t :=
  ⟨by decide, by decide, by decide, by decide, by decide, _, rfl⟩

/-- Meets `StripValueEmitsOneTriangle` with a degenerate triangle (S13) and either value of `reverse`. -/
theorem witness_stripValue :
    let s := { stripState [0x01, 0x00, 0x01, 0x00, 0x01, 0x00] 3 0 with
      seq := .sid { f1 := 1, f2 := 1, reverse := false, cur := 2, nt := 0 } }
    2 < s.idxCount.toNat ∧ s.memRead16 (2 * 2) ≠ 0xFFFF#16 := by decide

/-- Meets the three clauses of `RestartPrimesANewWindow`, the first two where they meet: exactly two values left,
and one. -/
theorem witness_restart :
    (∃ q, s2State.seq = .sid q ∧ q.cur + 3 ≤ s2State.idxCount.toNat) ∧
    (∃ q, ({ s2State with idxCount := 5#32 }).seq = .sid q ∧ q.cur + 3 = 5) ∧
    (∃ q, ({ s2State with idxCount := 4#32 }).seq = .sid q ∧ q.cur < 4 ∧ 4 < q.cur + 3) ∧
    ∀ q, ({ s2State with idxCount := 2#32 }).seq = .sid q → 2 ≤ q.cur := by
  refine ⟨⟨_, rfl, by decide⟩, ⟨_, rfl, by decide⟩, ⟨_, rfl, by decide, by decide⟩, fun q h => ?_⟩
  cases h
  decide

/-- `Inv` of a state with written memories: meets `EveryStepKeepsTheInvariant` and `CommandsAreIdempotent`. -/
theorem inv_texState : Inv texState where
  statusReserved := by decide
  errcodeRaised := by decide
  errcodeErr := by decide
  blkCtlReserved := by decide
  colReserved := by decide
  srcWf := by decide
  pixWf := by decide
  triWf := by decide
  sequencer := trivial

theorem witness_stepOfInv : ∃ t, Inv texState ∧ step texState = .next t := ⟨_, inv_texState, rfl⟩

theorem witness_idempotent : Inv texState ∧ ∀ a < texState.srcLen.toNat, texState.src.read a ≠ none := by
  refine ⟨inv_texState, fun a ha => ?_⟩
  have h : texState.srcLen.toNat = 52 := rfl
  rw [h] at ha
  interval_cases a <;> exact Option.some_ne_none _

/-- Meets `InterfaceTransactionsAlwaysComplete`, with the last legal offset of REG and the last byte of SRC. -/
theorem witness_interface :
    (hostState [.regRead .w32 0xBC#32, .srcWrite 0xFFFFFFFF#32 [0x00], .regWrite .w32 0x00#32 0x02#32]).Quiescent ∧
    ∀ x ∈ (hostState [.regRead .w32 0xBC#32, .srcWrite 0xFFFFFFFF#32 [0x00],
      .regWrite .w32 0x00#32 0x02#32]).pending, x.inInterface = true := by decide

/-- `s` after an earlier `BadGeometry`. -/
def errAlready (s : State) : State := { s with status := 0x02, errcode := 5 }

/-- Meets `NewerFaultReplacesTheCode` and its five clauses on `DECTEX`, each with `ERR` set and another fault's code
held. -/
theorem witness_errAlready :
    let badSize := errAlready { texState with src := texState.src.write 9 0x00 }
    let short := errAlready (t1State config.ptOpaque 51)
    (errAlready texState).hasFlag .err = true ∧
    (errAlready (t1State config.ptOpaque 15)).srcLen.toNat < 16 ∧
    (16 ≤ (errAlready (t1State otherType 16)).srcLen.toNat ∧ ¬TypeKnown (errAlready (t1State otherType 16))) ∧
    (16 ≤ badSize.srcLen.toNat ∧ TypeKnown badSize ∧ ¬SizeGood badSize) ∧
    (16 ≤ short.srcLen.toNat ∧ TypeKnown short ∧ SizeGood short ∧ ¬Complete short) ∧
    ChecksPass (errAlready texState) :=
  ⟨by decide, by decide, witness_unknownType, witness_badGeometry,
    ⟨witness_shortPayload.1, witness_shortPayload.2.1, witness_shortPayload.2.2.1, witness_shortPayload.2.2.2.1⟩,
    witness_checksPass.1⟩

/-- Meets the clauses of `NewerFaultReplacesTheCode` on `DECSTRIP`, where they meet, and on the illegal command
(X10). -/
theorem witness_errAlready_strip :
    let s := errAlready (hostState [.regWrite .w32 0x00#32 0x04#32])
    s.hasFlag .err = true ∧ 2 * s.idxCount.toNat ≤ s.srcLen.toNat ∧
    ({ s with idxCount := 1 }).srcLen.toNat < 2 * ({ s with idxCount := 1 }).idxCount.toNat ∧
    s.seq = .idle ∧ s.pending = .regWrite .w32 0x00#32 0x04#32 :: [] ∧
    field 0x04#32 0 8 ∉ [0x00, 0x01, 0x02, 0x03, 0x0F] := by decide

/-- Meets the clauses of `RegisterAccessRules` at the offsets where they meet. -/
theorem witness_registerAccess :
    (hostState [.regRead .w32 0xBC#32]).pending = .regRead .w32 0xBC#32 :: [] ∧
    (0xBC#32).toNat % 4 = 0 ∧ (0xBC#32).toNat ≤ 0xBC ∧ 0x44 ≤ (0x7C#32).toNat ∧ (0x7C#32).toNat ≤ 0x7C ∧
    0x24 ≤ (0x34#32).toNat ∧ (0x34#32).toNat ≤ 0x34 ∧ 0x40 ≤ (0x40#32).toNat ∧
    BusWidth.w16 ≠ .w32 ∧ (0x06#32).toNat % 4 ≠ 0 ∧ 0xBC < (0xC0#32).toNat := by decide

/-- Meets `ReadWriteRegistersHoldTheLastWrite`. -/
theorem witness_readWrite :
    (hostState [.regWrite .w32 0x18#32 0xFFFFFFFF#32]).pending =
      .regWrite .w32 (BitVec.ofNat 32 Reg.blkCtl.offset) 0xFFFFFFFF#32 :: [] ∧
    Reg.blkCtl ∈ [Reg.srcLen, .blkInfo, .blkPix, .blkCtl, .blkAlphaLo, .blkAlphaHi, .idxCount, .baseIndex] := by
  decide

/-- Meets `SrcHoldsWhatTheHostWrote` and the two clauses of `SrcAccessOutsideTheSpaceFaults` at the last offset. -/
theorem witness_srcEdge :
    (hostState [.srcWrite 0xFFFFFFFF#32 [0x01]]).pending = .srcWrite 0xFFFFFFFF#32 [0x01] :: [] ∧
    (0xFFFFFFFF#32).toNat + [(0x01 : Byte)].length ≤ 2 ^ 32 ∧
    2 ^ 32 < (0xFFFFFFFF#32).toNat + [(0x01 : Byte), 0x02].length ∧ 2 ^ 32 < (0xFFFFFFFF#32).toNat + 2 := by decide

/-- Meets the clauses of `PixAndTriHoldWhatTheHostWrote` and `HostReadsReturnWhatIsHeld` at the last entries. -/
theorem witness_buffers :
    (hostState [.pixWrite 0x3FFFFFF#26 1#32]).pending = .pixWrite 0x3FFFFFF#26 1#32 :: [] ∧
    (hostState [.triWrite 0xFFFFFFFF#32 ⟨1, 2, 3⟩]).pending = .triWrite 0xFFFFFFFF#32 ⟨1, 2, 3⟩ :: [] ∧
    (hostState [.triWriteWord 0#32 .c 1#32]).pending = .triWriteWord 0#32 .c 1#32 :: [] ∧
    (hostState [.pixRead 0#26]).pending = .pixRead 0#26 :: [] ∧
    (hostState [.triRead 0#32]).pending = .triRead 0#32 :: [] ∧
    (hostState [.triReadWord 0#32 .b]).pending = .triReadWord 0#32 .b :: [] ∧
    (hostState [.srcRead 0xFFFFFFFF#32 1]).pending = .srcRead 0xFFFFFFFF#32 1 :: [] ∧
    (0xFFFFFFFF#32).toNat + 1 ≤ 2 ^ 32 := by decide

/-- Meets `IdleEngineKeepsItsState` and `PlatformResetGivesTheResetState`. -/
theorem witness_idleAndReset : (hostState []).seq = .idle ∧ (hostState []).pending = [] ∧
    (hostState [.reset]).pending = .reset :: [] := by decide

end Sys2Proof.Tests
end

section
namespace Sys2Proof.Machine

/-! ## The invariant

Each shared operation keeps `Inv`; then each unit, each instruction, each transaction and each step. -/

theorem legalSequencer_of_idle {s : State} (h : s.seq = .idle) : legalSequencer s := by
  simp [legalSequencer, h]

theorem Inv.legalTxd {s : State} {q : TxdSeq} (h : Inv s) (hq : s.seq = .txd q) : q.Legal s.srcLen.toNat := by
  simpa [legalSequencer, hq] using h.sequencer

theorem Inv.legalSid {s : State} {q : SidSeq} (h : Inv s) (hq : s.seq = .sid q) :
    q.Legal s.srcLen.toNat s.idxCount.toNat := by
  simpa [legalSequencer, hq] using h.sequencer

/-- The invariant says nothing of the parts that are the model's own (log 1, log 7). -/
theorem Inv.withOwnParts {s : State} (h : Inv s) (d : Nat) (p : List Transaction) (l : List HostValue) :
    Inv { s with draws := d, pending := p, readLog := l } := { h with }

theorem Inv.nextDraw {s : State} (h : Inv s) : Inv s.nextDraw := { h with }

theorem Inv.returnToHost {s : State} (h : Inv s) (v : HostValue) : Inv (s.returnToHost v) := { h with }

theorem Inv.setFlag {s : State} {f : StatusFlag} (h : Inv s) (hf : f ≠ .err) : Inv (s.setFlag f) :=
  { h with
    statusReserved := status_or_reserved f h.statusReserved
    errcodeErr := by simpa [hf] using h.errcodeErr }

theorem Inv.setFlagIf {s : State} {f : StatusFlag} (h : Inv s) (c : Bool) (hf : f ≠ .err) :
    Inv (s.setFlagIf c f) := by
  cases c
  · exact h
  · exact h.setFlag hf

theorem Inv.clearFlag {s : State} {f : StatusFlag} (h : Inv s) (hf : f ≠ .err) : Inv (s.clearFlag f) :=
  { h with
    statusReserved := status_and_reserved _ h.statusReserved
    errcodeErr := by simpa [hf] using h.errcodeErr }

theorem Inv.raise {s : State} {e : ErrKind} (h : Inv s) (he : e.code ∈ [0#32, 1#32, 3#32, 5#32, 6#32]) :
    Inv (s.raise e) :=
  { h with
    statusReserved := status_or_reserved .err h.statusReserved
    errcodeRaised := he
    errcodeErr := by simpa using e.code_ne_zero }

theorem Inv.clearStatus {s : State} (h : Inv s) : Inv s.clearStatus :=
  { h with
    statusReserved := by simp
    errcodeRaised := by simp
    errcodeErr := by simp }

theorem Inv.withTxd {s : State} {q : TxdSeq} (h : Inv s) (hq : q.Legal s.srcLen.toNat) :
    Inv { s with seq := .txd q } := { h with sequencer := hq }

theorem Inv.withSid {s : State} {q : SidSeq} (h : Inv s) (hq : q.Legal s.srcLen.toNat s.idxCount.toNat) :
    Inv { s with seq := .sid q } := { h with sequencer := hq }

theorem Inv.withSrc {s : State} {m : Memory Byte} (h : Inv s) (hm : m.wf (2 ^ 32)) : Inv { s with src := m } :=
  { h with srcWf := hm }

theorem Inv.withPix {s : State} {m : Memory Word} (h : Inv s) (hm : m.wf (2 ^ 26)) : Inv { s with pix := m } :=
  { h with pixWf := hm }

theorem Inv.withTri {s : State} {m : Memory Word} (h : Inv s) (hm : m.wf (3 * 2 ^ 32)) :
    Inv { s with tri := m } := { h with triWf := hm }

theorem Inv.withCol {s : State} {cols : Vector Word 16} (h : Inv s)
    (hc : ∀ i : Fin 16, cols[i] &&& 0xFF000000#32 = 0) : Inv { s with col := cols } := { h with colReserved := hc }

theorem triKey_lt (t : Word) (l : TriLane) : triKey t.toNat l < 3 * 2 ^ 32 := by
  have := t.isLt
  cases l <;> simp only [triKey, TriLane.index] <;> omega

theorem Inv.writeReg {s : State} (h : Inv s) (hs : s.seq = .idle) (r : Reg) (v : Word) : Inv (s.writeReg r v) := by
  have hseq : legalSequencer (s.writeReg r v) := by
    obtain ⟨-, -, -, hframe, -⟩ := s.writeReg_frame r v
    exact legalSequencer_of_idle (hframe.trans hs)
  cases r
  case blkCtl => exact { h with blkCtlReserved := by simp [State.writeReg, BitVec.and_assoc] }
  all_goals exact { h with sequencer := hseq }

/-! ### BCC -/

/-- Bits 31:24 of a `COL` word are 0 (R96). -/
theorem rgb8_reserved (c : Colour) : rgb8 c &&& 0xFF000000#32 = 0 := by
  have hlt : (rgb8 c).toNat < 2 ^ 24 := by
    simp only [rgb8, BitVec.toNat_ofNat]
    omega
  have hmask : 0xFF000000#32 = 0xFF#32 <<< 24 := rfl
  refine BitVec.eq_of_getLsbD_eq fun i _ => ?_
  by_cases hi : i < 24
  · rw [hmask]
    simp [-BitVec.reduceHShiftLeft, hi]
  · have hbit : (rgb8 c).getLsbD i = false :=
      Nat.testBit_lt_two_pow (hlt.trans_le (Nat.pow_le_pow_right two_pos (Nat.not_lt.mp hi)))
    simp [hbit]

theorem blockWords_get (k : BlockInfo) (pix : Word) (i : Fin 16) :
    (blockWords k pix)[i] = rgb8 (blockColour k pix i) := by
  fin_cases i <;> rfl

theorem Inv.decodeToCol {s : State} (h : Inv s) (k : BlockInfo) : Inv (s.decodeToCol k) :=
  (h.withCol fun i => by rw [blockWords_get]; exact rgb8_reserved _).setFlagIf k.oor (by decide)

/-! ### TXD -/

/-- What R154 asks of an image, with its two sizes positive and whole super-tiles. -/
theorem goodGeometry_iff {w h : Nat} :
    goodGeometry w h = true ↔ 8 ≤ w ∧ 8 ≤ h ∧ w % 8 = 0 ∧ h % 8 = 0 := by
  simp only [goodGeometry, Bool.and_eq_true, decide_eq_true_eq]
  omega

/-- A legal image lies inside PIX (R45, R162). -/
theorem TxdSeq.Legal.entry_lt {q : TxdSeq} {len : Nat} (hq : q.Legal len) {i : Nat} (hi : i < 16) :
    q.entry i < 2 ^ 26 := by
  obtain ⟨hw, hh, -, -⟩ := goodGeometry_iff.mp hq.geometry
  calc q.entry i < q.w * q.h := TxdSeq.entry_lt hq.superTiles hw (by omega) hi
    _ ≤ 8191 * 8191 := Nat.mul_le_mul (Nat.le_of_lt_succ hq.width) (Nat.le_of_lt_succ hq.height)
    _ < 2 ^ 26 := by norm_num

/-- The next block of a legal image is legal. -/
theorem TxdSeq.Legal.advance {q : TxdSeq} {len : Nat} (hq : q.Legal len) (hn : q.n < q.nblk) :
    ({ q with n := q.n + 1 } : TxdSeq).Legal len :=
  { hq with position := hn }

theorem Inv.decodeToPix {s : State} {q : TxdSeq} (cfg : Config) (h : Inv s) (hq : s.seq = .txd q)
    (hn : q.n < q.nblk) (k : BlockInfo) : Inv (s.decodeToPix cfg q k) := by
  have hlegal := h.legalTxd hq
  have hpix := placeBlock_wf k (s.memRead32 (q.pixOffset cfg)) h.pixWf fun i hi => hlegal.entry_lt hi
  exact (((h.withTxd (hlegal.advance hn)).withPix hpix).setFlagIf k.oor (by decide)).nextDraw

theorem Inv.txdBlocks (cfg : Config) (k : Nat) {s : State} {q : TxdSeq} (h : Inv s) (hq : s.seq = .txd q)
    (hk : q.n + k ≤ q.nblk) : Inv (s.txdBlocks cfg k) := by
  induction k generalizing s q with
  | zero => exact h
  | succ k ih =>
    have hblock : s.txdBlock cfg = s.decodeToPix cfg q (blockOfWord (s.memRead32 (q.infoOffset cfg))) := by
      simp only [State.txdBlock, hq]
    have hseq : (s.txdBlock cfg).seq = .txd { q with n := q.n + 1 } := by
      rw [hblock, State.decodeToPix_eq]
    refine ih (s := s.txdBlock cfg) ?_ hseq ?_
    · rw [hblock]
      exact h.decodeToPix cfg hq (by omega) _
    · change q.n + 1 + k ≤ q.nblk
      omega

theorem Inv.txdEnd {s : State} (h : Inv s) : Inv s.txdEnd := by
  unfold State.txdEnd
  split
  · exact Inv.setFlag (f := .done) { h with sequencer := trivial } (by decide)
  · exact h

/-- The sequencer of an image that passes the checks of R153 starts legal. -/
theorem TxdSeq.legal_start {cfg : Config} {geom fmt : Word} {len : Nat}
    (hsize : goodGeometry (widthOf geom) (heightOf geom) = true)
    (hlen : (TxdSeq.start cfg geom fmt).needed ≤ len) : (TxdSeq.start cfg geom fmt).Legal len where
  geometry := hsize
  width := Nat.mod_lt _ (by decide)
  height := Nat.mod_lt _ (by decide)
  superTiles := rfl
  blockBytes := by
    simp only [TxdSeq.start, bytesPerBlock]
    split_ifs <;> simp
  payload := by
    have : mipsOf geom < 2 ^ 6 := Nat.mod_lt _ (by decide)
    simp only [TxdSeq.start]
    omega
  position := Nat.zero_le _
  container := hlen

theorem Inv.dectexBody (cfg : Config) {s : State} (h : Inv s) : Inv (dectexBody cfg s) := by
  unfold Machine.dectexBody
  dsimp only
  split_ifs with htype hsize hlen
  · exact h.raise (by decide)
  · exact h.raise (by decide)
  · exact (h.withPix (Memory.wf_forgetBelow _ h.pixWf)).raise (by decide)
  · have hlegal := TxdSeq.legal_start (Bool.not_eq_false _ ▸ hsize) (Nat.not_lt.mp hlen)
    refine (Inv.txdBlocks cfg _ (q := TxdSeq.start cfg s.texGeom s.texFmt) ?_ rfl ?_).txdEnd
    · exact h.withTxd hlegal
    · exact (Nat.zero_add _).le

theorem Inv.dectexStart {s : State} (h : Inv s) : Inv (dectexStart s) :=
  { h.clearFlag (f := .done) (by decide) with sequencer := trivial }

theorem Inv.latchHeader {s : State} (h : Inv s) : Inv s.latchHeader := { h with }

theorem Inv.dectexWith (cfg : Config) {s : State} (h : Inv s) : Inv (dectexWith cfg s) := by
  unfold Machine.dectexWith
  split_ifs
  · exact h.dectexStart.raise (by decide)
  · exact h.dectexStart.latchHeader.dectexBody cfg

/-! ### SID -/

theorem Inv.sidEnd {s : State} (h : Inv s) (nt : Nat) : Inv (s.sidEnd nt) :=
  Inv.setFlag (s := { s with triCount := _, seq := .idle }) { h with sequencer := trivial } (by decide)

/-- Priming keeps the invariant where the stream lies below `SRC_LEN` and no more triangles than values were
counted. -/
theorem Inv.sidPrime {s : State} {cur nt : Nat} (h : Inv s)
    (hstream : 2 * s.idxCount.toNat ≤ s.srcLen.toNat) (hnt : nt ≤ cur) : Inv (s.sidPrime cur nt) := by
  obtain ⟨-, heq⟩ | ⟨hleft, heq⟩ := s.sidPrime_cases cur nt
  · rw [heq]
    exact ((h.setFlag (by decide)).sidEnd nt).nextDraw
  · rw [heq]
    exact { h with sequencer := ⟨Nat.add_le_add_right hnt 2, by dsimp only; omega, hstream⟩ }

theorem Inv.sidRestart {s : State} {q : SidSeq} (h : Inv s) (hq : s.seq = .sid q) : Inv (s.sidRestart q) := by
  obtain ⟨hprimed, -, hstream⟩ := h.legalSid hq
  exact h.sidPrime hstream (by omega)

/-- The triangle counter stays below `IDX_COUNT`, so that every entry written is one of TRI (R46). -/
theorem Inv.sidEmit {s : State} {q : SidSeq} (cfg : Config) (h : Inv s) (hq : s.seq = .sid q)
    (hcur : q.cur < s.idxCount.toNat) (f3 : Half) : Inv (s.sidEmit cfg q f3) := by
  obtain ⟨hprimed, -, hstream⟩ := h.legalSid hq
  have hnt : q.nt < 2 ^ 32 := by omega
  have hseq : SidSeq.Legal ⟨q.f2, f3, !q.reverse, q.cur + 1, q.nt + 1⟩ s.srcLen.toNat s.idxCount.toNat :=
    ⟨by dsimp only; omega, hcur, hstream⟩
  exact (((h.withTri (Memory.wf_writeTri _ h.triWf hnt)).withSid hseq).setFlagIf _ (by decide)).nextDraw

theorem Inv.sidElement (cfg : Config) {s : State} (h : Inv s) : Inv (s.sidElement cfg) := by
  cases hq : s.seq with
  | idle => rwa [State.sidElement_idle cfg hq]
  | txd q => simpa only [State.sidElement, hq] using h
  | sid q =>
    obtain ⟨-, -, heq⟩ | ⟨hcur, -, heq⟩ | ⟨-, heq⟩ := State.sidElement_cases cfg hq
    · exact heq ▸ h.sidRestart hq
    · exact heq ▸ h.sidEmit cfg hq hcur _
    · exact heq ▸ h.sidEnd q.nt

theorem Inv.sidElements (cfg : Config) (k : Nat) {s : State} (h : Inv s) : Inv (s.sidElements cfg k) := by
  induction k generalizing s with
  | zero => exact h
  | succ k ih => exact ih (h.sidElement cfg)

theorem Inv.decstripStart {s : State} (h : Inv s) : Inv (decstripStart s) :=
  { h.clearFlag (f := .done) (by decide) with sequencer := trivial }

theorem Inv.decstripWith (cfg : Config) {s : State} (h : Inv s) : Inv (decstripWith cfg s) := by
  unfold Machine.decstripWith
  split_ifs with hlen
  · exact h.decstripStart.raise (by decide)
  · exact (h.decstripStart.sidPrime (Nat.not_lt.mp hlen) le_rfl).sidElements cfg _

/-! ### Instructions, transactions, steps -/

theorem State.txdReading_eq_some {s : State} {q : TxdSeq} (h : s.txdReading = some q) :
    s.seq = .txd q ∧ q.n < q.nblk := by
  unfold State.txdReading at h
  split at h
  · split_ifs at h with hn
    cases h
    exact ⟨‹_›, hn⟩
  · cases h

theorem State.sidReading_eq_some {s : State} {q : SidSeq} (h : s.sidReading = some q) :
    s.seq = .sid q ∧ q.cur < s.idxCount.toNat := by
  unfold State.sidReading at h
  split at h
  · split_ifs at h with hcur
    cases h
    exact ⟨‹_›, hcur⟩
  · cases h

/-- What `IDX.RESTART` needs in order to answer a next state, and what it then does (R98, R184). -/
theorem execIdxRestart_eq_next {s t : State} (h : execIdxRestart s = .next t) :
    ∃ q, s.sidReading = some q ∧ t = s.sidRestart q := by
  unfold execIdxRestart at h
  split at h
  · cases h
    exact ⟨_, ‹_›, rfl⟩
  · cases h

theorem Inv.decodeBlockWord {s : State} (h : Inv s) (k : BlockInfo) : Inv (decodeBlockWord k s) := by
  unfold Machine.decodeBlockWord
  split
  next q hq =>
    obtain ⟨hseq, hn⟩ := State.txdReading_eq_some hq
    exact h.decodeToPix config hseq hn k
  next => exact h.decodeToCol k

theorem Inv.illegalCommand {s : State} (h : Inv s) : Inv (illegalCommand s) :=
  (h.clearFlag (f := .done) (by decide)).raise (by decide)

/-- Every instruction keeps the invariant. -/
theorem Inv.exec {i : Instr} {s t : State} (h : Inv s) (ht : exec i s = .next t) : Inv t := by
  cases i with
  | nop => cases ht; exact h
  | decblk => cases ht; exact ((h.clearFlag (by decide)).decodeToCol _).setFlag (by decide)
  | dectex => cases ht; exact h.dectexWith config
  | decstrip => cases ht; exact h.decstripWith config
  | clr => cases ht; exact h.clearStatus
  | infoInd f => cases ht; exact h.decodeBlockWord (indBlock f)
  | infoDiff f => cases ht; exact h.decodeBlockWord (diffBlock f)
  | idxRestart =>
    obtain ⟨q, hq, rfl⟩ := execIdxRestart_eq_next ht
    exact h.sidRestart (State.sidReading_eq_some hq).1

/-- The outcome of a piece of work: `step` is the outcome of `nextWork`. -/
def Work.outcome : Work → Host.Outcome State Fault Refusal
  | .run i s => exec i s
  | .finish o => o

theorem step_eq_outcome (s : State) : step s = (nextWork s).outcome := by
  unfold step
  cases nextWork s <;> rfl

theorem Inv.writeCommand {s t : State} (h : Inv s) {v : Word} (ht : (writeCommand v s).outcome = .next t) :
    Inv t := by
  unfold Machine.writeCommand at ht
  split at ht
  · exact h.exec ht
  · cases ht
    exact h.illegalCommand

theorem State.reset_col (i : Fin 16) : State.reset.col[i] = 0 := by
  revert i
  decide

/-- The platform's reset meets the invariant whatever stood before it (R51). -/
theorem inv_platformReset (s : State) : Inv s.platformReset where
  statusReserved := by simp [State.platformReset, State.reset]
  errcodeRaised := by simp [State.platformReset, State.reset]
  errcodeErr := by simp [State.platformReset, State.reset, State.hasFlag]
  blkCtlReserved := by simp [State.platformReset, State.reset]
  colReserved i := by
    change State.reset.col[i] &&& _ = 0
    rw [State.reset_col]
    exact BitVec.zero_and
  srcWf := Memory.wf_nil _
  pixWf := Memory.wf_nil _
  triWf := Memory.wf_nil _
  sequencer := trivial

/-- Every transaction of the host and the platform keeps the invariant. -/
theorem Inv.transact {s t : State} (h : Inv s) (hs : s.seq = .idle) {x : Transaction}
    (ht : (transact x s).outcome = .next t) : Inv t := by
  cases x with
  | regWrite width off v =>
    simp only [Machine.transact] at ht
    split_ifs at ht
    · cases ht
    · cases ht
    · split at ht
      · exact h.writeCommand ht
      · cases ht
        exact h.writeReg hs _ v
      · cases ht
        exact h
  | regRead width off =>
    simp only [Machine.transact] at ht
    split_ifs at ht
    · cases ht
    · cases ht
    · split at ht <;> cases ht <;> exact h.returnToHost _
  | srcWrite off bs =>
    simp only [Machine.transact] at ht
    split_ifs at ht with hlen
    · cases ht
      exact h.withSrc (Memory.wf_writeBytes bs h.srcWf hlen)
    · cases ht
  | srcRead off n =>
    simp only [Machine.transact] at ht
    split_ifs at ht
    · cases ht
      exact h.returnToHost _
    · cases ht
  | pixWrite p v => cases ht; exact h.withPix (Memory.wf_write v h.pixWf p.isLt)
  | pixRead p => cases ht; exact h.returnToHost _
  | triWrite n e => cases ht; exact h.withTri (Memory.wf_writeTri e h.triWf n.isLt)
  | triRead n => cases ht; exact h.returnToHost _
  | triWriteWord n l v =>
    cases ht
    exact h.withTri (Memory.wf_write v h.triWf (triKey_lt n l))
  | triReadWord n l => cases ht; exact h.returnToHost _
  | reset => cases ht; exact inv_platformReset s

/-- Settles O3: the work a step does is a live sequencer's next element or the host's oldest transaction, and each
keeps the invariant. -/
theorem everyStepKeepsTheInvariant : Obligations.EveryStepKeepsTheInvariant := by
  intro s t h ht
  rw [step_eq_outcome] at ht
  unfold nextWork at ht
  split at ht
  next q hq =>
    split_ifs at ht
    · exact h.exec ht
    · cases ht
      exact h.txdEnd
  next q hq =>
    split_ifs at ht with hcur
    · split at ht
      · exact h.exec ht
      · cases ht
        exact h.sidEmit config hq hcur _
    · cases ht
      exact h.sidEnd q.nt
  next hs =>
    split at ht
    · cases ht
      exact h
    next x rest _ => exact Inv.transact (h.withOwnParts s.draws rest s.readLog) hs ht

/-- Settles O2: the state after reset is what the platform's reset makes of it. -/
theorem resetMeetsTheInvariant : Obligations.ResetMeetsTheInvariant :=
  inv_platformReset State.reset

end Sys2Proof.Machine
end

section
namespace Sys2Proof.Machine

/-! ## The host's transactions -/

/-- With no command running a step makes the host's oldest transaction (R73). -/
theorem step_of_pending {s : State} {x : Transaction} {rest : List Transaction} (hs : s.seq = .idle)
    (hp : s.pending = x :: rest) : step s = (transact x { s with pending := rest }).outcome := by
  rw [step_eq_outcome]
  simp only [nextWork, hs, hp]

/-- Settles O7: offset 0 is `CMD`'s, and a value that decodes to an instruction runs it. -/
theorem commandWriteRunsTheCommand : Obligations.CommandWriteRunsTheCommand := by
  intro s v rest i hs hp hv
  rw [step_of_pending hs hp]
  change (writeCommand v { s with pending := rest }).outcome = _
  simp only [writeCommand, hv, Work.outcome]

/-! ### The register map -/

theorem legalRegOffset_iff {off : Nat} : legalRegOffset off = true ↔ off % 4 = 0 ∧ off ≤ 0xBC := by
  simp [legalRegOffset]

/-- A read at a legal offset returns the register there, 0 where the map has none (R23). -/
theorem transact_regRead {off : Word} (s : State) (h : legalRegOffset off.toNat = true) :
    transact (.regRead .w32 off) s =
      .finish (.next (s.returnToHost (.word ((Reg.ofOffset off.toNat).elim 0 s.readReg)))) := by
  simp only [transact, h]
  cases Reg.ofOffset off.toNat <;> rfl

/-- A write at the offset of a register other than `CMD`. -/
theorem transact_regWrite {off : Word} {r : Reg} (s : State) (v : Word) (hr : r.offset = off.toNat)
    (hcmd : r ≠ .cmd) :
    transact (.regWrite .w32 off v) s = .finish (.next (s.writeReg r v)) := by
  have hoff : Reg.ofOffset off.toNat = some r := hr ▸ r.ofOffset_offset
  have hlegal : legalRegOffset off.toNat = true := hr ▸ r.legal_offset
  simp only [transact, hoff, hlegal]
  cases r
  case cmd => exact absurd rfl hcmd
  all_goals rfl

/-- A write at an offset the map has no register at changes nothing (R23). -/
theorem transact_regWrite_unmapped {off : Word} (s : State) (v : Word) (hlegal : legalRegOffset off.toNat = true)
    (hoff : Reg.ofOffset off.toNat = none) : transact (.regWrite .w32 off v) s = .finish (.next s) := by
  simp [transact, hoff, hlegal]

/-- The offsets from `0x44` to `0x7C` are unmapped (R22). -/
theorem Reg.ofOffset_unmapped {off : Nat} (h : 0x44 ≤ off ∧ off ≤ 0x7C) : Reg.ofOffset off = none := by
  cases hr : Reg.ofOffset off with
  | none => rfl
  | some r =>
    have := Reg.offset_of_ofOffset hr
    cases r <;> simp only [Reg.offset] at this <;> omega

/-- A host write of a read-only register changes nothing (R23). -/
theorem State.writeReg_readOnly (s : State) {r : Reg} (v : Word)
    (h : r.offset = 0x04 ∨ r.offset = 0x08 ∨ (0x24 ≤ r.offset ∧ r.offset ≤ 0x34) ∨ 0x40 ≤ r.offset) :
    s.writeReg r v = s := by
  cases r <;> simp [Reg.offset] at h <;> rfl

/-- An access of another width or at an offset outside the interface is refused (R23). -/
theorem transact_reg_refused {width : BusWidth} {off : Word} (s : State) (v : Word)
    (h : width ≠ .w32 ∨ legalRegOffset off.toNat = false) :
    (∃ r, transact (.regRead width off) s = .finish (.refused r)) ∧
      ∃ r, transact (.regWrite width off v) s = .finish (.refused r) := by
  by_cases hw : width = .w32
  · have hoff := h.resolve_left (not_not_intro hw)
    exact ⟨⟨.regOffset, by simp [transact, hw, hoff]⟩, ⟨.regOffset, by simp [transact, hw, hoff]⟩⟩
  · exact ⟨⟨.regWidth, by simp [transact, hw]⟩, ⟨.regWidth, by simp [transact, hw]⟩⟩

/-- Settles O49: a legal offset is a register's or unmapped, and the read-only registers take no write. -/
theorem registerAccessRules : Obligations.RegisterAccessRules := by
  intro s off v width rest hs
  refine ⟨?_, ?_⟩
  · rintro rfl haligned hle
    have hlegal := legalRegOffset_iff.mpr ⟨haligned, hle⟩
    refine ⟨fun hp => ⟨(Reg.ofOffset off.toNat).elim 0 s.readReg, ?_, ?_, ?_⟩, fun hp hoff => ?_⟩
    · rw [step_of_pending hs hp, transact_regRead _ hlegal]
      rfl
    · rintro (h0 | hgap)
      · rw [h0]
        rfl
      · rw [Reg.ofOffset_unmapped hgap]
        rfl
    · intro r hr
      rw [← hr, r.ofOffset_offset]
      rfl
    · rw [step_of_pending hs hp]
      cases hr : Reg.ofOffset off.toNat with
      | none => rw [transact_regWrite_unmapped _ v hlegal hr]; rfl
      | some r =>
        have hroff := Reg.offset_of_ofOffset hr
        have hcmd : r ≠ .cmd := by
          rintro rfl
          simp only [Reg.offset] at hroff
          omega
        rw [transact_regWrite _ v hroff hcmd, State.writeReg_readOnly _ v (hroff ▸ hoff)]
        rfl
  · intro h hp
    have hillegal : width ≠ .w32 ∨ legalRegOffset off.toNat = false := by
      rw [← Bool.not_eq_true, legalRegOffset_iff]
      exact h.imp_right (by omega)
    obtain ⟨⟨r, hread⟩, ⟨r', hwrite⟩⟩ := transact_reg_refused { s with pending := rest } v hillegal
    rcases hp with hp | hp
    · exact ⟨r, by rw [step_of_pending hs hp, hread]; rfl⟩
    · exact ⟨r', by rw [step_of_pending hs hp, hwrite]; rfl⟩

/-- The registers the host writes (R22). -/
def Reg.readWrite : List Reg :=
  [.srcLen, .blkInfo, .blkPix, .blkCtl, .blkAlphaLo, .blkAlphaHi, .idxCount, .baseIndex]

theorem word_and_one (v : Word) : v &&& 1 = if v.getLsbD 0 then 1 else 0 := by
  rw [show (1 : Word) = 1#32 from rfl, BitVec.and_one_eq_setWidth_ofBool_getLsbD]
  cases v.getLsbD 0 <;> rfl

/-- A register holds what was written to it (R28, R29, R31, R37, R38), `BLK_CTL` bit 0 of it (R30). -/
theorem State.readReg_writeReg_self (s : State) {r : Reg} (v : Word) (h : r ∈ Reg.readWrite) :
    (s.writeReg r v).readReg r = if r = .blkCtl then (if v.getLsbD 0 then 1 else 0) else v := by
  cases r
  case blkCtl => exact word_and_one v
  case srcLen | blkInfo | blkPix | blkAlphaLo | blkAlphaHi | idxCount | baseIndex => rfl
  all_goals simp [Reg.readWrite] at h

/-- No other register changes: a read-only one takes no write at all (R23). -/
theorem State.readReg_writeReg_ne (s : State) {r r' : Reg} (v : Word) (h : r' ≠ r) :
    (s.writeReg r v).readReg r' = s.readReg r' := by
  cases r
  case srcLen | blkInfo | blkPix | blkCtl | blkAlphaLo | blkAlphaHi | idxCount | baseIndex =>
    cases r' <;> simp_all [State.writeReg, State.readReg]
  all_goals rfl

/-- Settles O50: the written register's offset is legal and is no other register's. -/
theorem readWriteRegistersHoldTheLastWrite : Obligations.ReadWriteRegistersHoldTheLastWrite := by
  intro s r v rest hs hr hp
  have hcmd : r ≠ .cmd := by
    rintro rfl
    simp at hr
  have hoff : r.offset = (BitVec.ofNat 32 r.offset).toNat := by
    have := (legalRegOffset_iff.mp r.legal_offset).2
    simp only [BitVec.toNat_ofNat]
    omega
  obtain ⟨hsrc, hpix, htri, hseq, hdraws, hpending, hlog⟩ := State.writeReg_frame { s with pending := rest } r v
  refine ⟨State.writeReg { s with pending := rest } r v, ?_, ?_, ?_, hsrc, hpix, htri, hseq.trans hs, hpending, hlog,
    hdraws⟩
  · rw [step_of_pending hs hp, transact_regWrite _ v hoff hcmd]
    rfl
  · exact State.readReg_writeReg_self _ v hr
  · intro r' hne
    rw [State.readReg_writeReg_ne _ v hne]
    cases r' <;> rfl

/-! ### The memories -/

/-- After a write of bytes the written range holds them in order, and every other byte is as before (R63). -/
theorem Memory.read_writeBytes (bs : List Byte) (m : Memory Byte) (off a : Nat) :
    (m.writeBytes off bs).read a =
      if off ≤ a ∧ a < off + bs.length then bs[a - off]? else m.read a := by
  induction bs generalizing m off with
  | nil => simp [Memory.writeBytes]
  | cons b bs ih =>
    simp only [Memory.writeBytes, ih, List.length_cons, Memory.read_write]
    rcases Nat.lt_trichotomy a off with hlt | rfl | hgt
    · simp [show ¬off ≤ a by omega, show ¬off + 1 ≤ a by omega, show a ≠ off by omega]
    · simp
    · have hbyte : (b :: bs)[a - off]? = bs[a - (off + 1)]? := by
        rw [List.getElem?_cons, if_neg (by omega), Nat.sub_sub]
      have hrange : (off + 1 ≤ a ∧ a < off + 1 + bs.length) ↔ (off ≤ a ∧ a < off + (bs.length + 1)) := by omega
      simp only [hbyte, hrange, hgt.ne', if_false]

/-- Settles O51: what the SRC write leaves at each offset. -/
theorem srcHoldsWhatTheHostWrote : Obligations.SrcHoldsWhatTheHostWrote := by
  intro s off bs rest hs hp hlen
  refine ⟨{ s with src := s.src.writeBytes off.toNat bs, pending := rest }, ?_, rfl,
    Memory.read_writeBytes bs s.src off.toNat⟩
  rw [step_of_pending hs hp]
  simp only [transact, hlen, if_true, Work.outcome]

/-- Settles O52: both accesses fail the bound of the space. -/
theorem srcAccessOutsideTheSpaceFaults : Obligations.SrcAccessOutsideTheSpaceFaults := by
  intro s off bs n rest hs
  refine ⟨fun hp hlen => ?_, fun hp hlen => ?_⟩ <;>
    simp only [step_of_pending hs hp, transact, Nat.not_le.mpr hlen, if_false, Work.outcome]

/-- Settles O53: one rule of memory writes for each of the three forms. -/
theorem pixAndTriHoldWhatTheHostWrote : Obligations.PixAndTriHoldWhatTheHostWrote := by
  intro s p t l v e rest hs
  refine ⟨fun hp => ?_, fun hp => ?_, fun hp => ?_⟩
  · exact ⟨{ s with pix := s.pix.write p.toNat v, pending := rest }, step_of_pending hs hp, rfl,
      fun k => s.pix.read_write p.toNat k v⟩
  · obtain ⟨ha, hb, hc⟩ := s.tri.read_writeTri_self t.toNat e
    refine ⟨{ s with tri := s.tri.writeTri t.toNat e, pending := rest }, step_of_pending hs hp, rfl, ?_,
      fun k => s.tri.read_writeTri_ne e⟩
    simp [State.triEntry, State.triWord, ha, hb, hc]
  · exact ⟨{ s with tri := s.tri.write (triKey t.toNat l) v, pending := rest }, step_of_pending hs hp, rfl,
      fun k => s.tri.read_write (triKey t.toNat l) k v⟩

theorem State.srcBytes_eq_map (s : State) (off n : Nat) :
    s.srcBytes off n = (List.range n).map fun k => s.srcByte (off + k) := by
  induction n generalizing off with
  | zero => rfl
  | succ n ih => simp [State.srcBytes, ih, List.range_succ_eq_map, Nat.add_assoc, Nat.add_comm 1]

/-- Settles O54: each read takes its transaction and returns what the accessor of its memory gives. -/
theorem hostReadsReturnWhatIsHeld : Obligations.HostReadsReturnWhatIsHeld := by
  intro s p t off l n rest hs
  refine ⟨fun hp => step_of_pending hs hp, fun hp => step_of_pending hs hp, fun hp => step_of_pending hs hp,
    fun hp hlen => ?_⟩
  rw [step_of_pending hs hp]
  simp only [transact, hlen, if_true, State.srcBytes_eq_map]
  rfl

/-- Settles O1: every register is 0 and no memory lists an entry, so that each reads as a draw. -/
theorem resetStateIsAsTheSpecSays : Obligations.ResetStateIsAsTheSpecSays := by
  refine ⟨fun r => ?_, rfl, fun d a => ⟨rfl, rfl, fun l => rfl⟩⟩
  cases r with
  | col i => exact State.reset_col i
  | _ => rfl

end Sys2Proof.Machine
end

section
namespace Sys2Proof.Machine

/-! ## What no instruction reads

Two states that differ in registers no instruction reads stay so: a relation that every operation keeps. -/

/-- `s` with other values in `STATUS`, `ERRCODE` and the three alpha operands of R30 and R31. -/
def State.overlay (s : State) (x y a b c : Word) : State :=
  { s with status := x, errcode := y, blkCtl := a, blkAlphaLo := b, blkAlphaHi := c }

/-- `s'` is `s` but for its alpha operands, which are `a`, `b` and `c`, and but for its `STATUS` and `ERRCODE`, which
are those of `s` where `same` holds. -/
def Twin (same : Prop) (a b c : Word) (s s' : State) : Prop :=
  ∃ x y, s' = s.overlay x y a b c ∧ (same → x = s.status ∧ y = s.errcode)

section
variable {same : Prop} {a b c : Word} {s s' : State}

/-! What two twins read is the same. -/

theorem Twin.srcLen (h : Twin same a b c s s') : s'.srcLen = s.srcLen := by
  obtain ⟨x, y, rfl, -⟩ := h
  rfl

theorem Twin.seq (h : Twin same a b c s s') : s'.seq = s.seq := by
  obtain ⟨x, y, rfl, -⟩ := h
  rfl

theorem Twin.idxCount (h : Twin same a b c s s') : s'.idxCount = s.idxCount := by
  obtain ⟨x, y, rfl, -⟩ := h
  rfl

theorem Twin.pix (h : Twin same a b c s s') : s'.pix = s.pix := by
  obtain ⟨x, y, rfl, -⟩ := h
  rfl

theorem Twin.memRead (h : Twin same a b c s s') (off n : Nat) : s'.memRead off n = s.memRead off n := by
  obtain ⟨x, y, rfl, -⟩ := h
  exact State.memRead_congr fun _ _ _ => rfl

theorem Twin.memRead32 (h : Twin same a b c s s') (off : Nat) : s'.memRead32 off = s.memRead32 off :=
  congrArg _ (h.memRead off 4)

theorem Twin.streamValue (h : Twin same a b c s s') (k : Nat) : s'.streamValue k = s.streamValue k :=
  congrArg _ (h.memRead (2 * k) 2)

/-! Each operation takes twins to twins. -/

theorem Twin.ite {r r' : State} {p p' : Prop} [Decidable p] [Decidable p'] (hp : p' ↔ p)
    (h : Twin same a b c s s') (hr : Twin same a b c r r') :
    Twin same a b c (if p then s else r) (if p' then s' else r') := by
  simp only [hp]
  split_ifs
  · exact h
  · exact hr

theorem Twin.setFlag (h : Twin same a b c s s') (f : StatusFlag) : Twin same a b c (s.setFlag f) (s'.setFlag f) := by
  obtain ⟨x, y, rfl, hsame⟩ := h
  exact ⟨_, _, rfl, fun e => ⟨congrArg (· ||| _) (hsame e).1, (hsame e).2⟩⟩

theorem Twin.clearFlag (h : Twin same a b c s s') (f : StatusFlag) :
    Twin same a b c (s.clearFlag f) (s'.clearFlag f) := by
  obtain ⟨x, y, rfl, hsame⟩ := h
  exact ⟨_, _, rfl, fun e => ⟨congrArg (· &&& _) (hsame e).1, (hsame e).2⟩⟩

theorem Twin.setFlagIf (h : Twin same a b c s s') (p : Bool) (f : StatusFlag) :
    Twin same a b c (s.setFlagIf p f) (s'.setFlagIf p f) := by
  cases p
  · exact h
  · exact h.setFlag f

theorem Twin.raise (h : Twin same a b c s s') (e : ErrKind) : Twin same a b c (s.raise e) (s'.raise e) := by
  obtain ⟨x, y, rfl, hsame⟩ := h
  exact ⟨_, _, rfl, fun hs => ⟨congrArg (· ||| _) (hsame hs).1, rfl⟩⟩

theorem Twin.clearStatus (h : Twin same a b c s s') : Twin same a b c s.clearStatus s'.clearStatus := by
  obtain ⟨x, y, rfl, -⟩ := h
  exact ⟨_, _, rfl, fun _ => ⟨rfl, rfl⟩⟩

theorem Twin.nextDraw (h : Twin same a b c s s') : Twin same a b c s.nextDraw s'.nextDraw := by
  obtain ⟨x, y, rfl, hsame⟩ := h
  exact ⟨x, y, rfl, hsame⟩

theorem Twin.withSeq (h : Twin same a b c s s') (q : Sequencer) :
    Twin same a b c { s with seq := q } { s' with seq := q } := by
  obtain ⟨x, y, rfl, hsame⟩ := h
  exact ⟨x, y, rfl, hsame⟩

theorem Twin.withPix (h : Twin same a b c s s') (m : Memory Word) :
    Twin same a b c { s with pix := m } { s' with pix := m } := by
  obtain ⟨x, y, rfl, hsame⟩ := h
  exact ⟨x, y, rfl, hsame⟩

theorem Twin.withTri (h : Twin same a b c s s') (m : Memory Word) :
    Twin same a b c { s with tri := m } { s' with tri := m } := by
  obtain ⟨x, y, rfl, hsame⟩ := h
  exact ⟨x, y, rfl, hsame⟩

theorem Twin.decodeToCol (h : Twin same a b c s s') (k : BlockInfo) :
    Twin same a b c (s.decodeToCol k) (s'.decodeToCol k) := by
  have hcol : Twin same a b c { s with col := blockWords k s.blkPix } { s' with col := blockWords k s'.blkPix } := by
    obtain ⟨x, y, rfl, hsame⟩ := h
    exact ⟨x, y, rfl, hsame⟩
  exact hcol.setFlagIf k.oor .diffoor

theorem Twin.latchHeader (h : Twin same a b c s s') : Twin same a b c s.latchHeader s'.latchHeader := by
  have h0 := h.memRead32
  obtain ⟨x, y, rfl, hsame⟩ := h
  refine ⟨x, y, ?_, hsame⟩
  simp only [State.latchHeader, h0]
  rfl

theorem Twin.decodeToPix (cfg : Config) (h : Twin same a b c s s') (q : TxdSeq) (k : BlockInfo) :
    Twin same a b c (s.decodeToPix cfg q k) (s'.decodeToPix cfg q k) := by
  unfold State.decodeToPix
  rw [h.memRead32, h.pix]
  have hseq := h.withSeq (.txd { q with n := q.n + 1 })
  exact ((hseq.withPix _).setFlagIf k.oor .diffoor).nextDraw

theorem Twin.txdBlock (cfg : Config) (h : Twin same a b c s s') :
    Twin same a b c (s.txdBlock cfg) (s'.txdBlock cfg) := by
  simp only [State.txdBlock, h.seq, h.memRead32]
  split
  · exact h.decodeToPix cfg _ _
  · exact h

theorem Twin.txdBlocks (cfg : Config) (k : Nat) (h : Twin same a b c s s') :
    Twin same a b c (s.txdBlocks cfg k) (s'.txdBlocks cfg k) := by
  induction k generalizing s s' with
  | zero => exact h
  | succ k ih => exact ih (h.txdBlock cfg)

theorem Twin.txdEnd (h : Twin same a b c s s') : Twin same a b c s.txdEnd s'.txdEnd := by
  simp only [State.txdEnd, h.seq]
  split
  next q _ =>
    have hend : Twin same a b c { s with texBlocks := BitVec.ofNat 32 q.n, seq := .idle }
        { s' with texBlocks := BitVec.ofNat 32 q.n, seq := .idle } := by
      obtain ⟨x, y, rfl, hsame⟩ := h
      exact ⟨x, y, rfl, hsame⟩
    exact hend.setFlag .done
  next => exact h

theorem Twin.dectexStart (h : Twin same a b c s s') : Twin same a b c (dectexStart s) (dectexStart s') := by
  obtain ⟨x, y, rfl, hsame⟩ := h
  exact ⟨_, y, rfl, fun e => ⟨congrArg (· &&& _) (hsame e).1, (hsame e).2⟩⟩

theorem Twin.dectexBody (cfg : Config) (h : Twin same a b c s s') :
    Twin same a b c (dectexBody cfg s) (dectexBody cfg s') := by
  obtain ⟨x, y, rfl, -⟩ := id h
  exact .ite Iff.rfl (h.raise _) (.ite Iff.rfl (h.raise _) (.ite Iff.rfl ((h.withPix _).raise _)
    ((h.withSeq _).txdBlocks cfg _).txdEnd))

theorem Twin.dectexWith (cfg : Config) (h : Twin same a b c s s') :
    Twin same a b c (dectexWith cfg s) (dectexWith cfg s') := by
  simp only [Machine.dectexWith, h.srcLen]
  split_ifs
  · exact h.dectexStart.raise _
  · exact h.dectexStart.latchHeader.dectexBody cfg

theorem Twin.sidEnd (h : Twin same a b c s s') (nt : Nat) : Twin same a b c (s.sidEnd nt) (s'.sidEnd nt) := by
  have hend : Twin same a b c { s with triCount := BitVec.ofNat 32 nt, seq := .idle }
      { s' with triCount := BitVec.ofNat 32 nt, seq := .idle } := by
    obtain ⟨x, y, rfl, hsame⟩ := h
    exact ⟨x, y, rfl, hsame⟩
  exact hend.setFlag .done

theorem Twin.sidPrime (h : Twin same a b c s s') (cur nt : Nat) :
    Twin same a b c (s.sidPrime cur nt) (s'.sidPrime cur nt) := by
  simp only [State.sidPrime, h.streamValue]
  exact .ite (by rw [h.idxCount]) ((h.setFlag .shortprime).sidEnd nt).nextDraw (h.withSeq _).nextDraw

theorem Twin.sidEmit (cfg : Config) (h : Twin same a b c s s') (q : SidSeq) (f3 : Half) :
    Twin same a b c (s.sidEmit cfg q f3) (s'.sidEmit cfg q f3) := by
  obtain ⟨x, y, rfl, -⟩ := id h
  have htri := h.withTri (s.tri.writeTri q.nt (rebaseTri s.baseIndex (windTriangle cfg q.reverse q.f1 q.f2 f3)))
  exact ((htri.withSeq _).setFlagIf _ .idxneg).nextDraw

theorem Twin.sidElement (cfg : Config) (h : Twin same a b c s s') :
    Twin same a b c (s.sidElement cfg) (s'.sidElement cfg) := by
  simp only [State.sidElement, h.seq, h.idxCount, h.streamValue]
  split
  · split_ifs
    · exact h.sidPrime _ _
    · exact h.sidEmit cfg _ _
    · exact h.sidEnd _
  · exact h

theorem Twin.sidElements (cfg : Config) (k : Nat) (h : Twin same a b c s s') :
    Twin same a b c (s.sidElements cfg k) (s'.sidElements cfg k) := by
  induction k generalizing s s' with
  | zero => exact h
  | succ k ih => exact ih (h.sidElement cfg)

theorem Twin.decstripStart (h : Twin same a b c s s') : Twin same a b c (decstripStart s) (decstripStart s') := by
  obtain ⟨x, y, rfl, hsame⟩ := h
  exact ⟨_, y, rfl, fun e => ⟨congrArg (· &&& _) (hsame e).1, (hsame e).2⟩⟩

theorem Twin.decstripWith (cfg : Config) (h : Twin same a b c s s') :
    Twin same a b c (decstripWith cfg s) (decstripWith cfg s') := by
  simp only [Machine.decstripWith, h.srcLen, h.idxCount]
  split_ifs
  · exact h.decstripStart.raise _
  · exact (h.decstripStart.sidPrime 0 0).sidElements cfg _

theorem Twin.decodeBlockWord (h : Twin same a b c s s') (k : BlockInfo) :
    Twin same a b c (decodeBlockWord k s) (decodeBlockWord k s') := by
  have hreading : s'.txdReading = s.txdReading := by simp only [State.txdReading, h.seq]
  simp only [Machine.decodeBlockWord, hreading]
  split
  · exact h.decodeToPix config _ k
  · exact h.decodeToCol k

/-- Every instruction takes twins to twins. -/
theorem Twin.exec {i : Instr} {t : State} (h : Twin same a b c s s') (ht : exec i s = .next t) :
    ∃ t', exec i s' = .next t' ∧ Twin same a b c t t' := by
  cases i with
  | nop => cases ht; exact ⟨s', rfl, h⟩
  | decblk =>
    cases ht
    have hinfo : s'.blkInfo = s.blkInfo := by
      obtain ⟨x, y, rfl, -⟩ := h
      rfl
    exact ⟨_, rfl, hinfo ▸ ((h.clearFlag .done).decodeToCol _).setFlag .done⟩
  | dectex => cases ht; exact ⟨_, rfl, h.dectexWith config⟩
  | decstrip => cases ht; exact ⟨_, rfl, h.decstripWith config⟩
  | clr => cases ht; exact ⟨_, rfl, h.clearStatus⟩
  | infoInd f => cases ht; exact ⟨_, rfl, h.decodeBlockWord (indBlock f)⟩
  | infoDiff f => cases ht; exact ⟨_, rfl, h.decodeBlockWord (diffBlock f)⟩
  | idxRestart =>
    obtain ⟨q, hq, rfl⟩ := execIdxRestart_eq_next ht
    have hreading : s'.sidReading = some q := by
      rw [← hq]
      simp only [State.sidReading, h.seq, h.idxCount]
    refine ⟨s'.sidRestart q, ?_, h.sidPrime _ _⟩
    change execIdxRestart s' = _
    simp only [execIdxRestart, hreading]

end

/-- No instruction writes the alpha operands: a state is its own twin, and so is the state after it. -/
theorem exec_keeps_alpha {i : Instr} {s t : State} (ht : exec i s = .next t) :
    t.blkCtl = s.blkCtl ∧ t.blkAlphaLo = s.blkAlphaLo ∧ t.blkAlphaHi = s.blkAlphaHi := by
  have hself : Twin True s.blkCtl s.blkAlphaLo s.blkAlphaHi s s := ⟨_, _, rfl, fun _ => ⟨rfl, rfl⟩⟩
  obtain ⟨t', ht', x, y, heq, -⟩ := hself.exec ht
  obtain rfl : t = t' := Host.Outcome.next.inj (ht.symm.trans ht')
  exact ⟨(congrArg State.blkCtl heq :), (congrArg State.blkAlphaLo heq :), (congrArg State.blkAlphaHi heq :)⟩

/-- Settles O19: the state with other alpha operands is a twin that agrees in `STATUS` and `ERRCODE`. -/
theorem alphaOperandsHaveNoEffect : Obligations.AlphaOperandsHaveNoEffect := by
  intro i s t a b c ht
  obtain ⟨hctl, hlo, hhi⟩ := exec_keeps_alpha ht
  refine ⟨hctl, hlo, hhi, ?_⟩
  have htwin : Twin True a b c s (s.overlay s.status s.errcode a b c) := ⟨_, _, rfl, fun _ => ⟨rfl, rfl⟩⟩
  obtain ⟨t', ht', x, y, rfl, hsame⟩ := htwin.exec ht
  obtain ⟨rfl, rfl⟩ := hsame trivial
  exact ht'

/-- Settles O47: the state with another `STATUS` and `ERRCODE` is a twin with its own alpha operands. -/
theorem statusIsNoInput : Obligations.StatusIsNoInput := by
  intro i s t x y ht
  obtain ⟨hctl, hlo, hhi⟩ := exec_keeps_alpha ht
  have htwin : Twin False s.blkCtl s.blkAlphaLo s.blkAlphaHi s { s with status := x, errcode := y } :=
    ⟨x, y, rfl, False.elim⟩
  obtain ⟨u, hu, x', y', rfl, -⟩ := htwin.exec ht
  exact ⟨_, hu, by rw [← hctl, ← hlo, ← hhi]; rfl⟩

end Sys2Proof.Machine
end

section
namespace Sys2Proof.Machine

/-! ## Which flags an instruction gains -/

/-- From `s` to `t` no flag but `DONE` is lost, and none but those of `fs` is gained. -/
def GainsOnly (fs : List StatusFlag) (s t : State) : Prop :=
  ∀ f, f ≠ .done →
    (s.hasFlag f = true → t.hasFlag f = true) ∧ (t.hasFlag f = true → s.hasFlag f = true ∨ f ∈ fs)

section
variable {fs : List StatusFlag} {s t : State}

theorem GainsOnly.of_status {t' : State} (h : GainsOnly fs s t) (hst : t'.status = t.status) : GainsOnly fs s t' := by
  simpa only [GainsOnly, State.hasFlag, hst] using h

theorem GainsOnly.refl (fs : List StatusFlag) (s : State) : GainsOnly fs s s := fun _ _ => ⟨id, .inl⟩

theorem GainsOnly.nextDraw (h : GainsOnly fs s t) : GainsOnly fs s t.nextDraw := h.of_status rfl

theorem GainsOnly.setFlag (h : GainsOnly fs s t) {g : StatusFlag} (hg : g = .done ∨ g ∈ fs) :
    GainsOnly fs s (t.setFlag g) := by
  intro f hf
  obtain ⟨hkeep, hgain⟩ := h f hf
  simp only [State.hasFlag_setFlag, Bool.or_eq_true, decide_eq_true_eq]
  refine ⟨fun hs => .inl (hkeep hs), ?_⟩
  rintro (ht | rfl)
  · exact hgain ht
  · exact .inr (hg.resolve_left hf)

theorem GainsOnly.setFlagIf (h : GainsOnly fs s t) {c : Bool} {g : StatusFlag}
    (hg : c = true → g = .done ∨ g ∈ fs) :
    GainsOnly fs s (t.setFlagIf c g) := by
  cases c
  · exact h
  · exact h.setFlag (hg rfl)

theorem GainsOnly.clearDone (h : GainsOnly fs s t) : GainsOnly fs s (t.clearFlag .done) := by
  intro f hf
  simpa [hf.symm] using h f hf

theorem GainsOnly.raise (h : GainsOnly fs s t) (e : ErrKind) (herr : .err ∈ fs) : GainsOnly fs s (t.raise e) :=
  (h.setFlag (.inr herr)).of_status rfl

theorem GainsOnly.decodeToCol (h : GainsOnly fs s t) {k : BlockInfo} (hoor : k.oor = true → .diffoor ∈ fs) :
    GainsOnly fs s (t.decodeToCol k) :=
  (h.setFlagIf fun hk => .inr (hoor hk)).of_status (by simp [State.decodeToCol])

theorem GainsOnly.decodeToPix (cfg : Config) (h : GainsOnly fs s t) (q : TxdSeq) {k : BlockInfo}
    (hoor : k.oor = true → .diffoor ∈ fs) : GainsOnly fs s (t.decodeToPix cfg q k) :=
  (h.setFlagIf fun hk => .inr (hoor hk)).of_status (by simp [State.decodeToPix])

theorem GainsOnly.txdBlocks (cfg : Config) (k : Nat) (h : GainsOnly fs s t) (hoor : .diffoor ∈ fs) :
    GainsOnly fs s (t.txdBlocks cfg k) := by
  induction k generalizing t with
  | zero => exact h
  | succ k ih =>
    refine ih (t := t.txdBlock cfg) ?_
    unfold State.txdBlock
    split
    · exact h.decodeToPix cfg _ fun _ => hoor
    · exact h

theorem GainsOnly.txdEnd (h : GainsOnly fs s t) : GainsOnly fs s t.txdEnd := by
  unfold State.txdEnd
  split
  · exact (h.setFlag (g := .done) (.inl rfl)).of_status rfl
  · exact h

theorem GainsOnly.dectexBody (cfg : Config) (h : GainsOnly fs s t) (herr : .err ∈ fs) (hoor : .diffoor ∈ fs) :
    GainsOnly fs s (dectexBody cfg t) := by
  unfold Machine.dectexBody
  dsimp only
  split_ifs
  · exact h.raise _ herr
  · exact h.raise _ herr
  · exact (h.raise .truncatedInput herr).of_status rfl
  · refine (GainsOnly.txdBlocks cfg _ ?_ hoor).txdEnd
    exact h.of_status rfl

theorem GainsOnly.dectexWith (cfg : Config) (h : GainsOnly fs s t) (herr : .err ∈ fs) (hoor : .diffoor ∈ fs) :
    GainsOnly fs s (dectexWith cfg t) := by
  have hstart : GainsOnly fs s (dectexStart t) := h.clearDone.of_status rfl
  unfold Machine.dectexWith
  split_ifs
  · exact hstart.raise _ herr
  · exact (hstart.of_status (t' := (dectexStart t).latchHeader) rfl).dectexBody cfg herr hoor

theorem GainsOnly.sidEnd (h : GainsOnly fs s t) (nt : Nat) : GainsOnly fs s (t.sidEnd nt) :=
  (h.setFlag (g := .done) (.inl rfl)).of_status rfl

theorem GainsOnly.sidPrime (h : GainsOnly fs s t) (cur nt : Nat) (hshort : .shortprime ∈ fs) :
    GainsOnly fs s (t.sidPrime cur nt) := by
  unfold State.sidPrime
  split_ifs
  · exact ((h.setFlag (.inr hshort)).sidEnd nt).nextDraw
  · exact h.of_status rfl

theorem GainsOnly.sidEmit (cfg : Config) (h : GainsOnly fs s t) (q : SidSeq) (f3 : Half) (hneg : .idxneg ∈ fs) :
    GainsOnly fs s (t.sidEmit cfg q f3) :=
  (h.setFlagIf (c := triBelowBase t.baseIndex (windTriangle cfg q.reverse q.f1 q.f2 f3)) fun _ => .inr hneg).of_status
    (by simp [State.sidEmit])

theorem GainsOnly.sidElement (cfg : Config) (h : GainsOnly fs s t) (hshort : .shortprime ∈ fs) (hneg : .idxneg ∈ fs) :
    GainsOnly fs s (t.sidElement cfg) := by
  unfold State.sidElement
  split
  · split_ifs
    · exact h.sidPrime _ _ hshort
    · exact h.sidEmit cfg _ _ hneg
    · exact h.sidEnd _
  · exact h

theorem GainsOnly.sidElements (cfg : Config) (k : Nat) (h : GainsOnly fs s t) (hshort : .shortprime ∈ fs)
    (hneg : .idxneg ∈ fs) : GainsOnly fs s (t.sidElements cfg k) := by
  induction k generalizing t with
  | zero => exact h
  | succ k ih => exact ih (h.sidElement cfg hshort hneg)

theorem GainsOnly.decstripWith (cfg : Config) (h : GainsOnly fs s t) (herr : .err ∈ fs) (hshort : .shortprime ∈ fs)
    (hneg : .idxneg ∈ fs) : GainsOnly fs s (decstripWith cfg t) := by
  have hstart : GainsOnly fs s (decstripStart t) := h.clearDone.of_status rfl
  unfold Machine.decstripWith
  split_ifs
  · exact hstart.raise _ herr
  · exact (hstart.sidPrime 0 0 hshort).sidElements cfg _ hshort hneg

theorem GainsOnly.decodeBlockWord (h : GainsOnly fs s t) {k : BlockInfo} (hoor : k.oor = true → .diffoor ∈ fs) :
    GainsOnly fs s (decodeBlockWord k t) := by
  unfold Machine.decodeBlockWord
  split
  · exact h.decodeToPix config _ hoor
  · exact h.decodeToCol hoor

end

/-- The flags besides `DONE` in whose row of R25 an instruction stands as a setter; the data-format rows are those of
the element that the command reads (log 3). -/
def gainedFlags : Instr → List StatusFlag
  | .nop => []
  | .decblk => [.diffoor]
  | .dectex => [.err, .diffoor]
  | .decstrip => [.err, .idxneg, .shortprime]
  | .clr => []
  | .infoInd _ => []
  | .infoDiff _ => [.diffoor]
  | .idxRestart => [.shortprime]

/-- No instruction but `CLR` loses a flag other than `DONE`, and each gains only those of its rows. -/
theorem exec_gainsOnly {i : Instr} {s t : State} (hi : i ≠ .clr) (ht : exec i s = .next t) :
    GainsOnly (gainedFlags i) s t := by
  have h := GainsOnly.refl (gainedFlags i) s
  cases i with
  | nop => cases ht; exact h
  | decblk => cases ht; exact (h.clearDone.decodeToCol fun _ => by simp [gainedFlags]).setFlag (.inl rfl)
  | dectex => cases ht; exact h.dectexWith config (by simp [gainedFlags]) (by simp [gainedFlags])
  | decstrip =>
    cases ht
    exact h.decstripWith config (by simp [gainedFlags]) (by simp [gainedFlags]) (by simp [gainedFlags])
  | clr => exact absurd rfl hi
  | infoInd f => cases ht; exact h.decodeBlockWord (k := indBlock f) fun hoor => nomatch hoor
  | infoDiff f => cases ht; exact h.decodeBlockWord (k := diffBlock f) fun _ => by simp [gainedFlags]
  | idxRestart =>
    obtain ⟨q, -, rfl⟩ := execIdxRestart_eq_next ht
    exact h.sidPrime _ _ (by simp [gainedFlags])

theorem err_mem_gainedFlags {i : Instr} : .err ∈ gainedFlags i ↔ i = .dectex ∨ i = .decstrip := by
  cases i <;> simp [gainedFlags]

theorem diffoor_mem_gainedFlags {i : Instr} :
    .diffoor ∈ gainedFlags i ↔ i = .decblk ∨ i = .dectex ∨ ∃ f, i = .infoDiff f := by
  cases i <;> simp [gainedFlags]

theorem idxneg_mem_gainedFlags {i : Instr} : .idxneg ∈ gainedFlags i ↔ i = .decstrip := by
  cases i <;> simp [gainedFlags]

theorem shortprime_mem_gainedFlags {i : Instr} :
    .shortprime ∈ gainedFlags i ↔ i = .decstrip ∨ i = .idxRestart := by
  cases i <;> simp [gainedFlags]

/-- Settles O46: what an instruction gains is what stands in its rows. -/
theorem stickyFlagsAreOnlyGained : Obligations.StickyFlagsAreOnlyGained := by
  intro i s t hi ht
  have h := exec_gainsOnly hi ht
  refine ⟨fun f hf => (h f ?_).1,
    fun hf => ((h .idxneg (by decide)).2 hf).imp_right idxneg_mem_gainedFlags.mp,
    fun hf => ((h .shortprime (by decide)).2 hf).imp_right shortprime_mem_gainedFlags.mp,
    fun hf => ((h .err (by decide)).2 hf).imp_right err_mem_gainedFlags.mp,
    fun hf => ((h .diffoor (by decide)).2 hf).imp_right diffoor_mem_gainedFlags.mp⟩
  rintro rfl
  simp at hf

end Sys2Proof.Machine
end

section
namespace Sys2Proof.Machine

/-! ## Words of the opcode table -/

/-- Where TXD has a block to decode a step runs that block's info word (R158). -/
theorem step_of_block {s : State} {q : TxdSeq} (hs : s.seq = .txd q) (hn : q.n < q.nblk) :
    step s = exec (decodeInfo (s.memRead32 (q.infoOffset config))) s := by
  rw [step_eq_outcome]
  simp only [nextWork, hs, hn, if_true, Work.outcome]

/-- Where SID reads a value in the `f3` position that decodes to an instruction a step runs it (R194). -/
theorem step_of_stream_value {s : State} {q : SidSeq} {i : Instr} (hs : s.seq = .sid q)
    (hcur : q.cur < s.idxCount.toNat) (hi : decodeIndex (s.streamValue q.cur) = .ok i) : step s = exec i s := by
  rw [step_eq_outcome]
  simp only [nextWork, hs, hcur, if_true, hi, Work.outcome]

theorem leValue_leBytes (n v : Nat) : leValue (leBytes n v) = v % 256 ^ n := by
  induction n generalizing v with
  | zero => simp [leBytes, leValue, Nat.mod_one]
  | succ n ih =>
    rw [leBytes, leValue, ih, Nat.pow_succ', Nat.mod_mul]
    rfl

theorem ofNat_mod_two_pow (n v : Nat) : BitVec.ofNat n (v % 2 ^ n) = BitVec.ofNat n v :=
  BitVec.eq_of_toNat_eq (by simp)

theorem length_leBytes (n v : Nat) : (leBytes n v).length = n := by
  induction n generalizing v with
  | zero => rfl
  | succ n ih => simp [leBytes, ih]

/-- A wide read of bytes that were just written gives the number they spell (R62, R63). -/
theorem State.memRead_writeBytes (bs : List Byte) (s : State) (m : Memory Byte) (off : Nat) :
    ({ s with src := m.writeBytes off bs } : State).memRead off bs.length = leValue bs := by
  induction bs generalizing m off with
  | nil => rfl
  | cons b bs ih =>
    have hbyte : ({ s with src := m.writeBytes off (b :: bs) } : State).srcByte off = b :=
      State.srcByte_of_read (by simp [Memory.read_writeBytes])
    simp only [List.length_cons, State.memRead, leValue, hbyte]
    rw [Memory.writeBytes, ih]

theorem State.memRead_leBytes (s : State) (m : Memory Byte) (off n v : Nat) :
    ({ s with src := m.writeBytes off (leBytes n v) } : State).memRead off n = v % 256 ^ n := by
  have h := State.memRead_writeBytes (leBytes n v) s m off
  rwa [length_leBytes, leValue_leBytes] at h

/-- Decoding the bytes of a number is decoding the number. -/
theorem decodeBytes_leBytes {f : Format} {v : Nat} {i : Instr} {rest : List Byte}
    (h : decodeBytes f (leBytes f.bytes v) = .ok (i, rest)) : decodeValue f (v % 256 ^ f.bytes) = .ok i := by
  have htake : (leBytes f.bytes v).take f.bytes = leBytes f.bytes v :=
    List.take_of_length_le (length_leBytes _ _).le
  rw [decodeBytes, length_leBytes, if_neg (Nat.lt_irrefl _), htake, leValue_leBytes] at h
  cases hv : decodeValue f (v % 256 ^ f.bytes) with
  | error r => simp [hv, Except.map] at h
  | ok j =>
    simp only [hv, Except.map, Except.ok.injEq, Prod.mk.injEq] at h
    rw [h.1]

/-- The instruction of a table word is what its format's decoder makes of the word's number. -/
theorem decodeValue_of_decodeTableWord {nbits w : Nat} {i : Instr} (h : decodeTableWord nbits w = some i) :
    decodeValue (tableFormat nbits (w % 2 ^ nbits))
      (w % 2 ^ nbits % 256 ^ (tableFormat nbits (w % 2 ^ nbits)).bytes) = .ok i := by
  unfold decodeTableWord at h
  dsimp only at h
  split at h
  · cases h
    exact decodeBytes_leBytes ‹_›
  · cases h

/-- A value decodes to an instruction of the format it is read in. -/
theorem encode_format_of_decodeValue {f : Format} {v : Nat} {i : Instr} (h : decodeValue f v = .ok i) :
    (encode i).format = f := by
  cases f with
  | cmdw =>
    simp only [decodeValue, decodeCommand] at h
    split_ifs at h <;> cases h <;> rfl
  | info32 =>
    simp only [decodeValue, decodeInfo] at h
    split_ifs at h <;> cases h <;> rfl
  | idx16 =>
    simp only [decodeValue, decodeIndex] at h
    split_ifs at h
    cases h
    rfl

/-- Settles O9: each of the three placements puts the word where the next step reads it back. -/
theorem placedTableWordRunsAsDecoded : Obligations.PlacedTableWordRunsAsDecoded := by
  intro s nbits w i h
  have hv := decodeValue_of_decodeTableWord h
  rw [encode_format_of_decodeValue hv]
  unfold State.withFetchWord placeTableWord
  dsimp only
  generalize w % 2 ^ nbits = v at hv ⊢
  generalize tableFormat nbits v = f at hv ⊢
  cases f with
  | cmdw =>
    have hcmd : decodeCommand (BitVec.ofNat 32 v) = .ok i := by
      rw [← ofNat_mod_two_pow]
      exact hv
    exact commandWriteRunsTheCommand { s with seq := .idle, pending := _ } _ s.pending i rfl rfl hcmd
  | info32 =>
    obtain rfl : decodeInfo (BitVec.ofNat 32 (v % 256 ^ 4)) = i := Except.ok.inj hv
    rw [← State.memRead_leBytes { s with seq := .txd ⟨0, 8, 8, 8, 16, 1⟩, srcLen := 48 } s.src]
    exact step_of_block rfl (by decide)
  | idx16 =>
    have hread :=
      State.memRead_leBytes { s with seq := .sid ⟨0, 0, true, 2, 0⟩, srcLen := 6, idxCount := 3 } s.src 4 2 v
    have hidx := congrArg (fun k => decodeIndex (BitVec.ofNat 16 k)) hread
    exact step_of_stream_value (q := ⟨0, 0, true, 2, 0⟩) rfl (Nat.lt_succ_self 2) (hidx.trans hv)

end Sys2Proof.Machine
end

section
namespace Sys2Proof.Machine

/-! ## Reads of SRC -/

theorem State.memRead32_toNat (s : State) (off : Nat) : (s.memRead32 off).toNat = s.memRead off 4 :=
  (BitVec.toNat_ofNat _ 32).trans (Nat.mod_eq_of_lt (s.memRead_lt off 4))

theorem State.memRead16_toNat (s : State) (off : Nat) : (s.memRead16 off).toNat = s.memRead off 2 :=
  (BitVec.toNat_ofNat _ 16).trans (Nat.mod_eq_of_lt (s.memRead_lt off 2))

/-- Settles O22: a wide read is the sum of its bytes, each below 256, so that eight bits of it are one of them. -/
theorem memReadIsLittleEndian : Obligations.MemReadIsLittleEndian := by
  intro s off
  have h32 : (s.memRead32 off).toNat = (s.srcByte off).toNat + 2 ^ 8 * (s.srcByte (off + 1)).toNat +
      2 ^ 16 * (s.srcByte (off + 2)).toNat + 2 ^ 24 * (s.srcByte (off + 3)).toNat := by
    rw [State.memRead32_toNat]
    simp only [State.memRead]
    ring
  have h0 := (s.srcByte off).isLt
  have h1 := (s.srcByte (off + 1)).isLt
  have h2 := (s.srcByte (off + 2)).isLt
  refine ⟨h32, s.memRead16_toNat off, BitVec.eq_of_toNat_eq ?_, BitVec.eq_of_toNat_eq ?_⟩ <;>
    rw [BitVec.extractLsb'_toNat, Nat.shiftRight_eq_div_pow, h32] <;> omega

/-! ## The small steps of `DECTEX` -/

/-- A block-info word run where TXD has a block to decode is one pass of its loop (R150, R158). -/
theorem step_txdBlock {s : State} {q : TxdSeq} (hs : s.seq = .txd q) (hn : q.n < q.nblk) :
    step s = .next (s.txdBlock config) := by
  have hreading : s.txdReading = some q := by simp only [State.txdReading, hs, hn, if_true]
  rw [step_of_block hs hn]
  simp only [State.txdBlock, hs]
  obtain ⟨f, hi, hb⟩ | ⟨f, hi, hb⟩ := decodeInfo_block (s.memRead32 (q.infoOffset config)) <;>
    rw [hi, hb] <;> simp only [exec, execInfoInd, execInfoDiff, decodeBlockWord, hreading]

/-- With no block left a step ends the command (R169). -/
theorem step_txdEnd {s : State} {q : TxdSeq} (hs : s.seq = .txd q) (hn : q.nblk ≤ q.n) :
    step s = .next s.txdEnd := by
  simp only [step, nextWork, hs, Nat.not_lt.mpr hn, if_false]

theorem State.txdBlock_seq (cfg : Config) {s : State} {q : TxdSeq} (hs : s.seq = .txd q) :
    (s.txdBlock cfg).seq = .txd { q with n := q.n + 1 } := by
  simp only [State.txdBlock, hs, State.decodeToPix_eq]

/-- As many steps as there are blocks left and one more are the blocks and the end of a `DECTEX`. -/
theorem run_txdBlocks (k : Nat) {s : State} {q : TxdSeq} (hs : s.seq = .txd q) (hk : q.n + k = q.nblk) :
    core.run (k + 1) s = .next (s.txdBlocks config k).txdEnd := by
  induction k generalizing s q with
  | zero =>
    have hstep : core.step s = .next s.txdEnd := step_txdEnd hs hk.ge
    simp only [Host.Core.run, hstep, State.txdBlocks]
  | succ k ih =>
    have hstep : core.step s = .next (s.txdBlock config) := step_txdBlock hs (by omega)
    simp only [Host.Core.run] at ih ⊢
    rw [hstep]
    refine ih (s.txdBlock_seq config hs) ?_
    change q.n + 1 + k = q.nblk
    omega

/-! ## What a container says

The restatement of a container's fields and checks in `Reference` agrees with the operands of the model. -/

section
open Reference

theorem field_eq_bitField (w : Word) (lo width : Nat) : field w lo (width + 1) = bitField w (lo + width) lo := by
  simp only [field, bitField, BitVec.extractLsb'_toNat, Nat.shiftRight_eq_div_pow, Nat.add_sub_cancel_left]

/-- TXD's sequencer before the first block of the container in SRC. -/
def containerStart (s : State) : TxdSeq := TxdSeq.start config (s.memRead32 8) (s.memRead32 12)

theorem width_eq (s : State) : width s = widthOf (s.memRead32 8) := field_eq_bitField _ 6 12

theorem height_eq (s : State) : height s = heightOf (s.memRead32 8) := field_eq_bitField _ 19 12

theorem pbase_eq (s : State) : pbase s = (containerStart s).pbase := by
  simp only [pbase, mips, field_eq_bitField, containerStart, TxdSeq.start, mipsOf, Nat.zero_add]

theorem pixType_eq (s : State) : pixType s = pixTypeOf (s.memRead32 12) := by
  refine BitVec.eq_of_toNat_eq ?_
  have hlt : bitField (s.memRead32 12) 15 8 < 2 ^ 8 := Nat.mod_lt _ (by decide)
  rw [pixTypeOf, BitVec.toNat_ofNat, Nat.mod_eq_of_lt hlt]
  exact field_eq_bitField _ 8 7

theorem bpb_eq (s : State) : bpb s = (containerStart s).bpb := by
  simp only [bpb, pixType_eq, containerStart, TxdSeq.start, bytesPerBlock]

theorem typeKnown_iff (s : State) : TypeKnown s ↔ recognised config (pixTypeOf (s.memRead32 12)) = true := by
  simp only [TypeKnown, pixType_eq, recognised, Bool.or_eq_true, decide_eq_true_eq]

theorem sizeGood_iff (s : State) :
    SizeGood s ↔ goodGeometry (containerStart s).w (containerStart s).h = true := by
  rw [goodGeometry_iff, SizeGood, width_eq, height_eq]
  simp only [containerStart, TxdSeq.start]
  omega

theorem nblk_eq {s : State} (h : SizeGood s) : nblk s = (containerStart s).nblk := by
  obtain ⟨⟨i, hi⟩, ⟨j, hj⟩, -, -⟩ := h
  have hw : widthOf (s.memRead32 8) = 8 * i := (width_eq s).symm.trans hi
  have hh : heightOf (s.memRead32 8) = 8 * j := (height_eq s).symm.trans hj
  have hblocks : 8 * i * (8 * j) = 16 * (2 * i * (2 * j)) := by ring
  rw [nblk, hi, hj, hblocks, Nat.mul_div_cancel_left _ (by decide)]
  simp only [TxdSeq.nblk, containerStart, TxdSeq.start, hw, hh]
  congr 1 <;> omega

theorem complete_iff {s : State} (h : SizeGood s) : Complete s ↔ (containerStart s).needed ≤ s.srcLen.toNat := by
  rw [Complete, pbase_eq, bpb_eq, nblk_eq h, TxdSeq.needed]

/-- A state whose header is latched, with TXD's sequencer before the first block. -/
def State.txdStarted (s : State) : State :=
  { (dectexStart s).latchHeader with seq := .txd (containerStart s) }

/-- The reads of a container's header do not depend on what `DECTEX` does first. -/
theorem dectexStart_memRead32 (s : State) (off : Nat) : (dectexStart s).memRead32 off = s.memRead32 off :=
  congrArg (BitVec.ofNat 32) (State.memRead_congr fun _ _ _ => rfl)

/-- A latched header that passes checks 2, 3 and 4 of R153 is followed by the blocks and the end (R150). -/
theorem dectexBody_of_checks (cfg : Config) {s : State} {q : TxdSeq} (hq : q = TxdSeq.start cfg s.texGeom s.texFmt)
    (htype : recognised cfg (pixTypeOf s.texFmt) = true) (hsize : goodGeometry q.w q.h = true)
    (hlen : q.needed ≤ s.srcLen.toNat) :
    dectexBody cfg s = ({ s with seq := .txd q }.txdBlocks cfg q.nblk).txdEnd := by
  subst hq
  simp only [dectexBody, htype, hsize, Nat.not_lt.mpr hlen, Bool.true_eq_false, if_false]

/-- A `DECTEX` that passes its checks is its blocks and its end (R150, R153). -/
theorem dectexWith_of_checksPass {s : State} (h : ChecksPass s) :
    dectexWith config s = (s.txdStarted.txdBlocks config (containerStart s).nblk).txdEnd := by
  obtain ⟨hheader, htype, hsize, hcomplete⟩ := h
  rw [dectexWith, if_neg (Nat.not_lt.mpr hheader)]
  refine dectexBody_of_checks config ?_ ?_ ((sizeGood_iff s).mp hsize) ((complete_iff hsize).mp hcomplete)
  · simp only [containerStart, State.latchHeader_texGeom, State.latchHeader_texFmt, dectexStart_memRead32]
  · rw [State.latchHeader_texFmt, dectexStart_memRead32]
    exact (typeKnown_iff s).mp htype

/-- Settles O40: a step in TXD's loop is a block and the last one the end, as in the atomic command. -/
theorem textureStepsReachTheAtomicResult : Obligations.TextureStepsReachTheAtomicResult := by
  intro s h
  refine ⟨_, rfl, ?_⟩
  have hseq : (⟨0, width s, height s, bpb s, pbase s, width s / 8⟩ : TxdSeq) = containerStart s := by
    rw [bpb_eq, pbase_eq, width_eq, height_eq]
    rfl
  have hstart : { latched s with
      status := s.status &&& ~~~1#32
      seq := .txd ⟨0, width s, height s, bpb s, pbase s, width s / 8⟩ } = s.txdStarted := by
    rw [hseq]
    simp only [State.txdStarted, State.latchHeader, dectexStart_memRead32]
    rfl
  rw [hstart, dectexWith_of_checksPass h, nblk_eq h.2.2.1]
  exact run_txdBlocks _ rfl (Nat.zero_add _)

end

end Sys2Proof.Machine
end

section
namespace Sys2Proof.Machine

/-! ## What an instruction writes -/

/-- The results of the three units: SID's, BCC's and TXD's. -/
inductive Result where
  | tri
  | triCount
  | col
  | tex
  | pix

/-- From `s` to `t` nothing that the host writes changes, and of the results none but those of `rs`. -/
structure WritesOnly (rs : List Result) (s t : State) : Prop where
  src : t.src = s.src
  srcLen : t.srcLen = s.srcLen
  blkInfo : t.blkInfo = s.blkInfo
  blkPix : t.blkPix = s.blkPix
  blkCtl : t.blkCtl = s.blkCtl
  blkAlphaLo : t.blkAlphaLo = s.blkAlphaLo
  blkAlphaHi : t.blkAlphaHi = s.blkAlphaHi
  idxCount : t.idxCount = s.idxCount
  baseIndex : t.baseIndex = s.baseIndex
  pending : t.pending = s.pending
  readLog : t.readLog = s.readLog
  tri : .tri ∉ rs → t.tri = s.tri
  triCount : .triCount ∉ rs → t.triCount = s.triCount
  col : .col ∉ rs → t.col = s.col
  tex : .tex ∉ rs → t.texMagic = s.texMagic ∧ t.texFlags = s.texFlags ∧ t.texGeom = s.texGeom ∧
    t.texFmt = s.texFmt ∧ t.texBlocks = s.texBlocks
  pix : .pix ∉ rs → t.pix = s.pix

section
variable {rs : List Result} {s t : State}

theorem WritesOnly.refl (rs : List Result) (s : State) : WritesOnly rs s s := by
  constructor <;> simp

theorem WritesOnly.setFlag (h : WritesOnly rs s t) (f : StatusFlag) : WritesOnly rs s (t.setFlag f) := { h with }

theorem WritesOnly.clearFlag (h : WritesOnly rs s t) (f : StatusFlag) : WritesOnly rs s (t.clearFlag f) := { h with }

theorem WritesOnly.setFlagIf (h : WritesOnly rs s t) (c : Bool) (f : StatusFlag) :
    WritesOnly rs s (t.setFlagIf c f) := by
  cases c
  · exact h
  · exact h.setFlag f

theorem WritesOnly.raise (h : WritesOnly rs s t) (e : ErrKind) : WritesOnly rs s (t.raise e) := { h with }

theorem WritesOnly.clearStatus (h : WritesOnly rs s t) : WritesOnly rs s t.clearStatus := { h with }

theorem WritesOnly.nextDraw (h : WritesOnly rs s t) : WritesOnly rs s t.nextDraw := { h with }

theorem WritesOnly.decodeToCol (h : WritesOnly rs s t) (hr : .col ∈ rs) (k : BlockInfo) :
    WritesOnly rs s (t.decodeToCol k) :=
  WritesOnly.setFlagIf (t := { t with col := blockWords k t.blkPix }) { h with col := fun hn => absurd hr hn }
    k.oor .diffoor

theorem WritesOnly.decodeToPix (cfg : Config) (h : WritesOnly rs s t) (hr : .pix ∈ rs) (q : TxdSeq)
    (k : BlockInfo) : WritesOnly rs s (t.decodeToPix cfg q k) := by
  rw [State.decodeToPix_eq]
  exact { h with pix := fun hn => absurd hr hn }

theorem WritesOnly.decodeBlockWord (h : WritesOnly rs s t) (hcol : .col ∈ rs) (hpix : .pix ∈ rs) (k : BlockInfo) :
    WritesOnly rs s (decodeBlockWord k t) := by
  unfold Machine.decodeBlockWord
  split
  · exact h.decodeToPix config hpix _ k
  · exact h.decodeToCol hcol k

theorem WritesOnly.latchHeader (h : WritesOnly rs s t) (hr : .tex ∈ rs) : WritesOnly rs s t.latchHeader :=
  { h with tex := fun hn => absurd hr hn }

theorem WritesOnly.txdBlocks (cfg : Config) (k : Nat) (h : WritesOnly rs s t) (hr : .pix ∈ rs) :
    WritesOnly rs s (t.txdBlocks cfg k) := by
  induction k generalizing t with
  | zero => exact h
  | succ k ih =>
    refine ih (t := t.txdBlock cfg) ?_
    unfold State.txdBlock
    split
    · exact h.decodeToPix cfg hr _ _
    · exact h

theorem WritesOnly.txdEnd (h : WritesOnly rs s t) (hr : .tex ∈ rs) : WritesOnly rs s t.txdEnd := by
  unfold State.txdEnd
  split
  · exact { h with tex := fun hn => absurd hr hn }
  · exact h

theorem WritesOnly.dectexBody (cfg : Config) (h : WritesOnly rs s t) (htex : .tex ∈ rs) (hpix : .pix ∈ rs) :
    WritesOnly rs s (dectexBody cfg t) := by
  unfold Machine.dectexBody
  dsimp only
  split_ifs
  · exact h.raise _
  · exact h.raise _
  · exact { h with pix := fun hn => absurd hpix hn }
  · refine (WritesOnly.txdBlocks cfg _ ?_ hpix).txdEnd htex
    exact { h with }

theorem WritesOnly.dectexWith (cfg : Config) (h : WritesOnly rs s t) (htex : .tex ∈ rs) (hpix : .pix ∈ rs) :
    WritesOnly rs s (dectexWith cfg t) := by
  have hstart : WritesOnly rs s (dectexStart t) := { h with tex := fun hn => absurd htex hn }
  unfold Machine.dectexWith
  split_ifs
  · exact hstart.raise _
  · exact (hstart.latchHeader htex).dectexBody cfg htex hpix

theorem WritesOnly.sidEnd (h : WritesOnly rs s t) (hr : .triCount ∈ rs) (nt : Nat) : WritesOnly rs s (t.sidEnd nt) :=
  { h with triCount := fun hn => absurd hr hn }

theorem WritesOnly.sidPrime (h : WritesOnly rs s t) (hr : .triCount ∈ rs) (cur nt : Nat) :
    WritesOnly rs s (t.sidPrime cur nt) := by
  unfold State.sidPrime
  split_ifs
  · exact ((h.setFlag .shortprime).sidEnd hr nt).nextDraw
  · exact { h with }

theorem WritesOnly.sidEmit (cfg : Config) (h : WritesOnly rs s t) (hr : .tri ∈ rs) (q : SidSeq) (f3 : Half) :
    WritesOnly rs s (t.sidEmit cfg q f3) := by
  rw [State.sidEmit_eq]
  exact { h with tri := fun hn => absurd hr hn }

theorem WritesOnly.sidElement (cfg : Config) (h : WritesOnly rs s t) (htri : .tri ∈ rs) (hcount : .triCount ∈ rs) :
    WritesOnly rs s (t.sidElement cfg) := by
  unfold State.sidElement
  split
  · split_ifs
    · exact h.sidPrime hcount _ _
    · exact h.sidEmit cfg htri _ _
    · exact h.sidEnd hcount _
  · exact h

theorem WritesOnly.sidElements (cfg : Config) (k : Nat) (h : WritesOnly rs s t) (htri : .tri ∈ rs)
    (hcount : .triCount ∈ rs) : WritesOnly rs s (t.sidElements cfg k) := by
  induction k generalizing t with
  | zero => exact h
  | succ k ih => exact ih (h.sidElement cfg htri hcount)

theorem WritesOnly.decstripWith (cfg : Config) (h : WritesOnly rs s t) (htri : .tri ∈ rs)
    (hcount : .triCount ∈ rs) : WritesOnly rs s (decstripWith cfg t) := by
  have hstart : WritesOnly rs s (decstripStart t) := { h with triCount := fun hn => absurd hcount hn }
  unfold Machine.decstripWith
  split_ifs
  · exact hstart.raise _
  · exact (hstart.sidPrime hcount 0 0).sidElements cfg _ htri hcount

end

/-- The results an instruction writes; a block-info word writes those of the unit that reads it (log 3). -/
def writtenResults : Instr → List Result
  | .nop => []
  | .decblk => [.col]
  | .dectex => [.tex, .pix]
  | .decstrip => [.tri, .triCount]
  | .clr => []
  | .infoInd _ => [.col, .pix]
  | .infoDiff _ => [.col, .pix]
  | .idxRestart => [.triCount]

/-- Every instruction writes only its own results. -/
theorem exec_writesOnly {i : Instr} {s t : State} (ht : exec i s = .next t) : WritesOnly (writtenResults i) s t := by
  have h := WritesOnly.refl (writtenResults i) s
  cases i with
  | nop => cases ht; exact h
  | decblk => cases ht; exact ((h.clearFlag .done).decodeToCol (by simp [writtenResults]) _).setFlag .done
  | dectex => cases ht; exact h.dectexWith config (by simp [writtenResults]) (by simp [writtenResults])
  | decstrip => cases ht; exact h.decstripWith config (by simp [writtenResults]) (by simp [writtenResults])
  | clr => cases ht; exact h.clearStatus
  | infoInd f => cases ht; exact h.decodeBlockWord (by simp [writtenResults]) (by simp [writtenResults]) (indBlock f)
  | infoDiff f => cases ht; exact h.decodeBlockWord (by simp [writtenResults]) (by simp [writtenResults]) (diffBlock f)
  | idxRestart =>
    obtain ⟨q, -, rfl⟩ := execIdxRestart_eq_next ht
    exact h.sidPrime (by simp [writtenResults]) _ _

theorem tri_mem_writtenResults {i : Instr} : .tri ∈ writtenResults i ↔ i = .decstrip := by
  cases i <;> simp [writtenResults]

theorem triCount_mem_writtenResults {i : Instr} :
    .triCount ∈ writtenResults i ↔ i = .decstrip ∨ i = .idxRestart := by
  cases i <;> simp [writtenResults]

theorem col_mem_writtenResults {i : Instr} :
    .col ∈ writtenResults i ↔ i = .decblk ∨ (∃ f, i = .infoInd f) ∨ ∃ f, i = .infoDiff f := by
  cases i <;> simp [writtenResults]

theorem tex_mem_writtenResults {i : Instr} : .tex ∈ writtenResults i ↔ i = .dectex := by
  cases i <;> simp [writtenResults]

theorem pix_mem_writtenResults {i : Instr} :
    .pix ∈ writtenResults i ↔ i = .dectex ∨ (∃ f, i = .infoInd f) ∨ ∃ f, i = .infoDiff f := by
  cases i <;> simp [writtenResults]

/-- Settles O45: an instruction writes the results of its own unit and no other. -/
theorem instructionsWriteOnlyTheirResults : Obligations.InstructionsWriteOnlyTheirResults := by
  intro i s t ht
  have h := exec_writesOnly ht
  refine ⟨h.src, h.srcLen, h.blkInfo, h.blkPix, h.blkCtl, h.blkAlphaLo, h.blkAlphaHi, h.idxCount, h.baseIndex,
    h.pending, h.readLog, fun hstrip => ⟨h.tri ?_, fun hrestart => h.triCount ?_⟩, ?_, fun htex => ?_⟩
  · rwa [tri_mem_writtenResults]
  · simp [triCount_mem_writtenResults, hstrip, hrestart]
  · rintro ⟨hblk, hind, hdiff⟩
    refine h.col ?_
    simpa [col_mem_writtenResults, hind, hdiff] using hblk
  · obtain ⟨hmagic, hflags, hgeom, hfmt, hblocks⟩ := h.tex (by rwa [tex_mem_writtenResults])
    refine ⟨hmagic, hflags, hgeom, hfmt, hblocks, fun hind hdiff => h.pix ?_⟩
    simp [pix_mem_writtenResults, htex, hind, hdiff]

end Sys2Proof.Machine
end

section
namespace Sys2Proof.Machine

/-! ## What `DECSTRIP` reads of SRC -/

/-- `s` with another SRC and another `SRC_LEN`. -/
def State.withStream (s : State) (m : Memory Byte) (len : Word) : State := { s with src := m, srcLen := len }

/-- SRC and `m` hold the same bytes of the stream (R70). -/
def State.StreamIs (s : State) (m : Memory Byte) : Prop := ∀ a < 2 * s.idxCount.toNat, m.read a = s.src.read a

section
variable {s : State} {m : Memory Byte} (len : Word)

theorem State.streamValue_withStream (h : s.StreamIs m) {k : Nat} (hk : k < s.idxCount.toNat) :
    (s.withStream m len).streamValue k = s.streamValue k := by
  refine congrArg (BitVec.ofNat 16) (State.memRead_congr fun a _ ha => ?_)
  simp only [State.srcByte, State.withStream, h a (by omega)]

theorem State.sidPrime_withStream (h : s.StreamIs m) (cur nt : Nat) :
    (s.withStream m len).sidPrime cur nt = (s.sidPrime cur nt).withStream m len := by
  have hcount : (s.withStream m len).idxCount = s.idxCount := rfl
  unfold State.sidPrime
  rw [hcount]
  split_ifs with hleft
  · rfl
  · rw [s.streamValue_withStream len h (by omega), s.streamValue_withStream len h (by omega)]
    rfl

theorem State.sidEmit_withStream (cfg : Config) (s : State) (q : SidSeq) (f3 : Half) :
    (s.withStream m len).sidEmit cfg q f3 = (s.sidEmit cfg q f3).withStream m len := by
  simp only [State.sidEmit_eq]
  rfl

theorem State.sidElement_withStream (cfg : Config) (h : s.StreamIs m) :
    (s.withStream m len).sidElement cfg = (s.sidElement cfg).withStream m len := by
  have hseq : (s.withStream m len).seq = s.seq := rfl
  have hcount : (s.withStream m len).idxCount = s.idxCount := rfl
  unfold State.sidElement
  rw [hseq]
  split
  next q _ =>
    rw [hcount]
    by_cases hcur : q.cur < s.idxCount.toNat
    · simp only [hcur, if_true, s.streamValue_withStream len h hcur]
      split_ifs
      · exact s.sidPrime_withStream len h _ _
      · exact s.sidEmit_withStream len cfg q _
    · simp only [hcur, if_false]
      rfl
  next => rfl

/-- What does not write the stream leaves it as it is. -/
theorem State.StreamIs.of_writesOnly {rs : List Result} {t : State} (h : s.StreamIs m) (ht : WritesOnly rs s t) :
    t.StreamIs m := by
  simpa only [State.StreamIs, ht.idxCount, ht.src] using h

theorem State.sidElements_withStream (cfg : Config) (k : Nat) (h : s.StreamIs m) :
    (s.withStream m len).sidElements cfg k = (s.sidElements cfg k).withStream m len := by
  induction k generalizing s with
  | zero => rfl
  | succ k ih =>
    simp only [State.sidElements, s.sidElement_withStream len cfg h]
    exact ih (h.of_writesOnly ((WritesOnly.refl [.tri, .triCount] s).sidElement cfg (by simp) (by simp)))

end

/-- Settles O36: both streams pass the one check (R182), and then every value is read from below `2 * IDX_COUNT`. -/
theorem decstripReadsOnlyItsStream : Obligations.DecstripReadsOnlyItsStream := by
  rintro s _ m len hs hlen hm ⟨⟩
  have hcheck : ¬s.srcLen.toNat < 2 * s.idxCount.toNat := Nat.not_lt.mpr hs
  have hcheck' : ¬(s.withStream m len).srcLen.toNat < 2 * (s.withStream m len).idxCount.toNat := Nat.not_lt.mpr hlen
  refine congrArg Host.Outcome.next
    (?_ : decstripWith config (s.withStream m len) = (decstripWith config s).withStream m len)
  rw [decstripWith, decstripWith, if_neg hcheck, if_neg hcheck']
  have hstart : (decstripStart s).StreamIs m := hm
  have hprimed : ((decstripStart s).sidPrime 0 0).StreamIs m :=
    hstart.of_writesOnly ((WritesOnly.refl [.triCount] _).sidPrime (by simp) 0 0)
  rw [← State.sidElements_withStream len config _ hprimed, ← State.sidPrime_withStream len hstart]
  rfl

end Sys2Proof.Machine
end

section
namespace Sys2Proof.Machine

/-! ## Canonical memories -/

theorem Memory.mem_keys_of_read {α : Type} {m : Memory α} {k : Nat} (h : m.read k ≠ none) :
    k ∈ m.map Prod.fst := by
  induction m with
  | nil => exact absurd rfl h
  | cons c m ih =>
    rw [Memory.read] at h
    split_ifs at h with hk
    · exact hk ▸ List.mem_cons_self
    · exact List.mem_cons_of_mem _ (ih h)

/-- Below its first key a canonical memory holds no value. -/
theorem Memory.read_eq_none_of_lt {α : Type} {m : Memory α} {k : Nat} (h : ∀ j ∈ m.map Prod.fst, k < j) :
    m.read k = none := by
  by_contra hread
  exact (h k (Memory.mem_keys_of_read hread)).false

/-- The first key of a canonical memory is the least that holds a value. -/
theorem Memory.head_le_of_read {α : Type} {c : Nat × α} {m : Memory α} {k : Nat}
    (h : ∀ j ∈ m.map Prod.fst, c.1 < j) (hread : Memory.read (c :: m) k ≠ none) : c.1 ≤ k := by
  rcases List.mem_cons.mp (Memory.mem_keys_of_read hread) with rfl | hmem
  · exact le_rfl
  · exact (h k hmem).le

/-- Canonical memories that read the same are the same: their first entries are, and neither holds a second value of
that key. -/
theorem Memory.eq_of_read {α : Type} {m m' : Memory α} (h : (m.map Prod.fst).Pairwise (· < ·))
    (h' : (m'.map Prod.fst).Pairwise (· < ·)) (hread : ∀ k, m.read k = m'.read k) : m = m' := by
  induction m generalizing m' with
  | nil =>
    cases m' with
    | nil => rfl
    | cons c' m' => simpa [Memory.read] using hread c'.1
  | cons c m ih =>
    cases m' with
    | nil => simpa [Memory.read] using hread c.1
    | cons c' m' =>
      obtain ⟨hlt, hsorted⟩ := List.pairwise_cons.mp h
      obtain ⟨hlt', hsorted'⟩ := List.pairwise_cons.mp h'
      have hhead : Memory.read (c :: m) c.1 = some c.2 := if_pos rfl
      have hhead' : Memory.read (c' :: m') c'.1 = some c'.2 := if_pos rfl
      have hkey : c.1 = c'.1 := le_antisymm
        (Memory.head_le_of_read hlt (by rw [hread, hhead']; exact Option.some_ne_none _))
        (Memory.head_le_of_read hlt' (by rw [← hread, hhead]; exact Option.some_ne_none _))
      have hvalue : c.2 = c'.2 := by rw [hread, hkey, hhead'] at hhead; exact (Option.some.inj hhead).symm
      refine congrArg₂ List.cons (Prod.ext hkey hvalue) (ih hsorted hsorted' fun k => ?_)
      by_cases hk : c.1 = k
      · rw [← hk, Memory.read_eq_none_of_lt hlt, Memory.read_eq_none_of_lt (hkey ▸ hlt')]
      · have hk' : c'.1 ≠ k := hkey ▸ hk
        simpa only [Memory.read, hk, hk', if_false] using hread k

/-! ## A command run a second time

A run `a` of a command that ends in `t`, and a second run `b` of it that began in `t`, go on in step. What `b` holds is
always what `a` holds or still what `t` holds, so that once `a` has reached `t` so has `b`. -/

/-- Every bit of `y` is that of `x` or that of `xt`. -/
def BitsBetween (xt x y : Word) : Prop := ∀ k, y.getLsbD k = x.getLsbD k ∨ y.getLsbD k = xt.getLsbD k

theorem BitsBetween.or {xt x y : Word} (h : BitsBetween xt x y) (w : Word) : BitsBetween xt (x ||| w) (y ||| w) := by
  intro k
  cases hw : w.getLsbD k <;> simp [hw, h k]

theorem BitsBetween.and {xt x y : Word} (h : BitsBetween xt x y) (w : Word) : BitsBetween xt (x &&& w) (y &&& w) := by
  intro k
  cases hw : w.getLsbD k <;> simp [hw, h k]

theorem BitsBetween.eq {x y : Word} (h : BitsBetween x x y) : y = x :=
  BitVec.eq_of_getLsbD_eq fun k _ => or_self_iff.mp (h k)

/-- Every entry of `n` is that of `m` or that of `mt`. -/
def Memory.Between {α : Type} (mt m n : Memory α) : Prop := ∀ k, n.read k = m.read k ∨ n.read k = mt.read k

section
variable {α : Type}

theorem Memory.Between.write {mt m n : Memory α} (h : Memory.Between mt m n) (k : Nat) (v : α) :
    Memory.Between mt (m.write k v) (n.write k v) := by
  intro j
  simp only [Memory.read_write]
  split_ifs
  · exact .inl rfl
  · exact h j

theorem Memory.Between.forgetBelow {mt m n : Memory α} (h : Memory.Between mt m n) (k : Nat) :
    Memory.Between mt (m.forgetBelow k) (n.forgetBelow k) := by
  intro j
  simp only [Memory.read_forgetBelow]
  split_ifs
  · exact .inl rfl
  · exact h j

theorem Memory.Between.writeTri {mt m n : Memory Word} (h : Memory.Between mt m n) (k : Nat) (e : Tri3) :
    Memory.Between mt (m.writeTri k e) (n.writeTri k e) :=
  ((h.write _ _).write _ _).write _ _

theorem Memory.Between.placeBlock {mt m n : Memory Word} (h : Memory.Between mt m n) (q : TxdSeq) (k : BlockInfo)
    (pixWord : Word) : Memory.Between mt (placeBlock q k pixWord m) (placeBlock q k pixWord n) := by
  unfold Machine.placeBlock
  induction List.range 16 generalizing m n with
  | nil => exact h
  | cons i l ih => exact ih (h.write _ _)

theorem Memory.Between.eq {size : Nat} {m n : Memory α} (h : Memory.Between m m n) (hm : m.wf size)
    (hn : n.wf size) : n = m :=
  Memory.eq_of_read hn.1 hm.1 fun k => or_self_iff.mp (h k)

end

/-- `b` has the inputs of `a`, with every byte the engine may read written, and every result in `b` is that of `a` or
that of `t`. -/
structure Rerun (t a b : State) : Prop where
  srcLen : b.srcLen = a.srcLen
  blkInfo : b.blkInfo = a.blkInfo
  blkPix : b.blkPix = a.blkPix
  blkCtl : b.blkCtl = a.blkCtl
  blkAlphaLo : b.blkAlphaLo = a.blkAlphaLo
  blkAlphaHi : b.blkAlphaHi = a.blkAlphaHi
  idxCount : b.idxCount = a.idxCount
  baseIndex : b.baseIndex = a.baseIndex
  src : b.src = a.src
  seq : b.seq = a.seq
  pending : b.pending = a.pending
  readLog : b.readLog = a.readLog
  written : ∀ k < a.srcLen.toNat, a.src.read k ≠ none
  status : BitsBetween t.status a.status b.status
  errcode : b.errcode = a.errcode ∨ b.errcode = t.errcode
  texMagic : b.texMagic = a.texMagic ∨ b.texMagic = t.texMagic
  texFlags : b.texFlags = a.texFlags ∨ b.texFlags = t.texFlags
  texGeom : b.texGeom = a.texGeom ∨ b.texGeom = t.texGeom
  texFmt : b.texFmt = a.texFmt ∨ b.texFmt = t.texFmt
  texBlocks : b.texBlocks = a.texBlocks ∨ b.texBlocks = t.texBlocks
  triCount : b.triCount = a.triCount ∨ b.triCount = t.triCount
  col : b.col = a.col ∨ b.col = t.col
  pix : Memory.Between t.pix a.pix b.pix
  tri : Memory.Between t.tri a.tri b.tri

section
variable {t a b : State}

/-- A second run that starts where the first one ended, with the sequencer the first one found. -/
theorem Rerun.start {i : Instr} {s : State} (ht : exec i s = .next t)
    (hwritten : ∀ k < s.srcLen.toNat, s.src.read k ≠ none) : Rerun t s { t with seq := s.seq } :=
  { exec_writesOnly ht with
    seq := rfl
    written := hwritten
    status := fun _ => .inr rfl
    errcode := .inr rfl
    texMagic := .inr rfl
    texFlags := .inr rfl
    texGeom := .inr rfl
    texFmt := .inr rfl
    texBlocks := .inr rfl
    triCount := .inr rfl
    col := .inr rfl
    pix := fun _ => .inr rfl
    tri := fun _ => .inr rfl }

/-- Once the first run has reached `t`, so has the second one but for the draw counter. -/
theorem Rerun.eq_of_reached (h : Rerun t t b) (ht : Inv t) (hb : Inv b) : { b with draws := t.draws } = t := by
  have hstatus := h.status.eq
  have hpix := h.pix.eq ht.pixWf hb.pixWf
  have htri := h.tri.eq ht.triWf hb.triWf
  cases t
  cases b
  simp only [State.mk.injEq]
  exact ⟨hstatus, or_self_iff.mp h.errcode, h.srcLen, h.blkInfo, h.blkPix, h.blkCtl, h.blkAlphaLo, h.blkAlphaHi,
    or_self_iff.mp h.texMagic, or_self_iff.mp h.texFlags, or_self_iff.mp h.texGeom, or_self_iff.mp h.texFmt,
    or_self_iff.mp h.texBlocks, h.idxCount, h.baseIndex, or_self_iff.mp h.triCount, or_self_iff.mp h.col, h.src,
    hpix, htri, h.seq, trivial, h.pending, h.readLog⟩

/-! What the two runs read is the same. -/

theorem Rerun.memRead (h : Rerun t a b) {off n : Nat} (hn : off + n ≤ a.srcLen.toNat) :
    b.memRead off n = a.memRead off n := by
  refine State.memRead_congr fun k _ hk => ?_
  obtain ⟨v, hv⟩ := Option.ne_none_iff_exists'.mp (h.written k (by omega))
  rw [State.srcByte_of_read hv, State.srcByte_of_read (h.src ▸ hv)]

theorem Rerun.memRead32 (h : Rerun t a b) {off : Nat} (hoff : off + 4 ≤ a.srcLen.toNat) :
    b.memRead32 off = a.memRead32 off :=
  congrArg (BitVec.ofNat 32) (h.memRead hoff)

theorem Rerun.streamValue (h : Rerun t a b) (hlen : 2 * a.idxCount.toNat ≤ a.srcLen.toNat) {k : Nat}
    (hk : k < a.idxCount.toNat) : b.streamValue k = a.streamValue k :=
  congrArg (BitVec.ofNat 16) (h.memRead (by omega))

/-! Each operation keeps the two runs in step. -/

theorem Rerun.setFlag (h : Rerun t a b) (f : StatusFlag) : Rerun t (a.setFlag f) (b.setFlag f) :=
  { h with status := h.status.or _ }

theorem Rerun.clearFlag (h : Rerun t a b) (f : StatusFlag) : Rerun t (a.clearFlag f) (b.clearFlag f) :=
  { h with status := h.status.and _ }

theorem Rerun.setFlagIf (h : Rerun t a b) (c : Bool) (f : StatusFlag) :
    Rerun t (a.setFlagIf c f) (b.setFlagIf c f) := by
  cases c
  · exact h
  · exact h.setFlag f

theorem Rerun.raise (h : Rerun t a b) (e : ErrKind) : Rerun t (a.raise e) (b.raise e) :=
  { h with
    status := h.status.or _
    errcode := .inl rfl }

theorem Rerun.clearStatus (h : Rerun t a b) : Rerun t a.clearStatus b.clearStatus :=
  { h with
    status := fun _ => .inl rfl
    errcode := .inl rfl }

theorem Rerun.nextDraw (h : Rerun t a b) : Rerun t a.nextDraw b.nextDraw := { h with }

theorem Rerun.withSeq (h : Rerun t a b) (q : Sequencer) : Rerun t { a with seq := q } { b with seq := q } :=
  { h with seq := rfl }

theorem Rerun.withPix {m m' : Memory Word} (h : Rerun t a b) (hm : Memory.Between t.pix m m') :
    Rerun t { a with pix := m } { b with pix := m' } :=
  { h with pix := hm }

theorem Rerun.withTri {m m' : Memory Word} (h : Rerun t a b) (hm : Memory.Between t.tri m m') :
    Rerun t { a with tri := m } { b with tri := m' } :=
  { h with tri := hm }

theorem Rerun.decodeToCol (h : Rerun t a b) (k : BlockInfo) : Rerun t (a.decodeToCol k) (b.decodeToCol k) := by
  have hcol : blockWords k b.blkPix = blockWords k a.blkPix := congrArg (blockWords k) h.blkPix
  unfold State.decodeToCol
  rw [hcol]
  refine Rerun.setFlagIf ?_ k.oor .diffoor
  exact { h with col := .inl rfl }

/-- The words of a block that is left lie below `SRC_LEN` (R153, R157). -/
theorem TxdSeq.Legal.words_le (cfg : Config) {q : TxdSeq} {len : Nat} (hq : q.Legal len) (hn : q.n < q.nblk) :
    q.pixOffset cfg + 4 ≤ len ∧ q.infoOffset cfg + 4 ≤ len := by
  have hblock : q.n * q.bpb + q.bpb ≤ q.nblk * q.bpb :=
    (Nat.succ_mul _ _).symm.trans_le (Nat.mul_le_mul_right _ hn)
  have hcolour : q.colourOffset cfg + 8 ≤ q.pbase + (q.n * q.bpb + q.bpb) := by
    simp only [TxdSeq.colourOffset]
    rcases hq.blockBytes with hb | hb <;> split_ifs <;> omega
  have hneeded := hq.container
  simp only [TxdSeq.needed] at hneeded
  unfold TxdSeq.pixOffset TxdSeq.infoOffset
  cases cfg.blockWordOrder <;> dsimp only <;> omega

theorem Rerun.decodeToPix (cfg : Config) (h : Rerun t a b) (q : TxdSeq) (k : BlockInfo)
    (hpix : b.memRead32 (q.pixOffset cfg) = a.memRead32 (q.pixOffset cfg)) :
    Rerun t (a.decodeToPix cfg q k) (b.decodeToPix cfg q k) := by
  have hseq := h.withSeq (.txd { q with n := q.n + 1 })
  have hplaced := h.pix.placeBlock q k (a.memRead32 (q.pixOffset cfg))
  unfold State.decodeToPix
  rw [hpix]
  exact ((hseq.withPix hplaced).setFlagIf k.oor .diffoor).nextDraw

theorem Rerun.txdBlock (cfg : Config) {q : TxdSeq} (h : Rerun t a b) (hs : a.seq = .txd q)
    (hq : q.Legal a.srcLen.toNat) (hn : q.n < q.nblk) : Rerun t (a.txdBlock cfg) (b.txdBlock cfg) := by
  obtain ⟨hpix, hinfo⟩ := hq.words_le cfg hn
  simp only [State.txdBlock, h.seq, hs, h.memRead32 hinfo]
  exact h.decodeToPix cfg q _ (h.memRead32 hpix)

theorem Rerun.txdBlocks (cfg : Config) (k : Nat) {q : TxdSeq} (h : Rerun t a b) (hs : a.seq = .txd q)
    (hq : q.Legal a.srcLen.toNat) (hk : q.n + k ≤ q.nblk) : Rerun t (a.txdBlocks cfg k) (b.txdBlocks cfg k) := by
  induction k generalizing a b q with
  | zero => exact h
  | succ k ih =>
    have hn : q.n < q.nblk := by omega
    have hlen : (a.txdBlock cfg).srcLen = a.srcLen :=
      ((WritesOnly.refl [.pix] a).txdBlocks cfg 1 (by simp)).srcLen
    refine ih (h.txdBlock cfg hs hq hn) (a.txdBlock_seq cfg hs) (hlen ▸ hq.advance hn) ?_
    change q.n + 1 + k ≤ q.nblk
    omega

theorem Rerun.txdEnd (h : Rerun t a b) : Rerun t a.txdEnd b.txdEnd := by
  simp only [State.txdEnd, h.seq]
  split
  next q _ =>
    refine Rerun.setFlag ?_ .done
    exact { h with
      texBlocks := .inl rfl
      seq := rfl }
  next => exact h

theorem Rerun.latchHeader (h : Rerun t a b) (hlen : 16 ≤ a.srcLen.toNat) : Rerun t a.latchHeader b.latchHeader :=
  { h with
    texMagic := .inl (h.memRead32 (by omega))
    texFlags := .inl (h.memRead32 (by omega))
    texGeom := .inl (h.memRead32 (by omega))
    texFmt := .inl (h.memRead32 (by omega)) }

theorem Rerun.dectexBody (cfg : Config) (h : Rerun t a b) (hgeom : b.texGeom = a.texGeom)
    (hfmt : b.texFmt = a.texFmt) : Rerun t (dectexBody cfg a) (dectexBody cfg b) := by
  have hstart : TxdSeq.start cfg b.texGeom b.texFmt = TxdSeq.start cfg a.texGeom a.texFmt := by rw [hgeom, hfmt]
  have htype : pixTypeOf b.texFmt = pixTypeOf a.texFmt := congrArg pixTypeOf hfmt
  have hlen : b.srcLen.toNat = a.srcLen.toNat := congrArg BitVec.toNat h.srcLen
  unfold Machine.dectexBody
  dsimp only
  rw [hstart, htype, hlen]
  split_ifs with _ hsize hneeded
  · exact h.raise _
  · exact h.raise _
  · exact (h.withPix (h.pix.forgetBelow _)).raise _
  · have hlegal := TxdSeq.legal_start (Bool.not_eq_false _ ▸ hsize) (Nat.not_lt.mp hneeded)
    exact ((h.withSeq _).txdBlocks cfg _ rfl hlegal (Nat.zero_add _).le).txdEnd

theorem Rerun.dectexStart (h : Rerun t a b) : Rerun t (dectexStart a) (dectexStart b) :=
  { h with
    status := h.status.and _
    texBlocks := .inl rfl
    seq := rfl }

theorem Rerun.dectexWith (cfg : Config) (h : Rerun t a b) : Rerun t (dectexWith cfg a) (dectexWith cfg b) := by
  simp only [Machine.dectexWith, h.srcLen]
  split_ifs with hlen
  · exact h.dectexStart.raise _
  · have hheader : 16 ≤ (Machine.dectexStart a).srcLen.toNat := Nat.not_lt.mp hlen
    exact (h.dectexStart.latchHeader hheader).dectexBody cfg (h.dectexStart.memRead32 (by omega))
      (h.dectexStart.memRead32 (by omega))

theorem Rerun.sidEnd (h : Rerun t a b) (nt : Nat) : Rerun t (a.sidEnd nt) (b.sidEnd nt) :=
  { h with
    status := h.status.or _
    triCount := .inl rfl
    seq := rfl }

theorem Rerun.sidPrime (h : Rerun t a b) (hlen : 2 * a.idxCount.toNat ≤ a.srcLen.toNat) (cur nt : Nat) :
    Rerun t (a.sidPrime cur nt) (b.sidPrime cur nt) := by
  have hcount : b.idxCount.toNat = a.idxCount.toNat := congrArg BitVec.toNat h.idxCount
  unfold State.sidPrime
  rw [hcount]
  split_ifs with hleft
  · exact ((h.setFlag .shortprime).sidEnd nt).nextDraw
  · rw [h.streamValue hlen (by omega), h.streamValue hlen (by omega)]
    exact { h with seq := rfl }

theorem Rerun.sidEmit (cfg : Config) (h : Rerun t a b) (q : SidSeq) (f3 : Half) :
    Rerun t (a.sidEmit cfg q f3) (b.sidEmit cfg q f3) := by
  have hrebase : rebaseTri b.baseIndex = rebaseTri a.baseIndex := congrArg rebaseTri h.baseIndex
  have hbelow : triBelowBase b.baseIndex = triBelowBase a.baseIndex := congrArg triBelowBase h.baseIndex
  unfold State.sidEmit
  rw [hrebase, hbelow]
  have htri := h.tri.writeTri q.nt (rebaseTri a.baseIndex (windTriangle cfg q.reverse q.f1 q.f2 f3))
  exact (((h.withTri htri).withSeq (.sid ⟨q.f2, f3, !q.reverse, q.cur + 1, q.nt + 1⟩)).setFlagIf _ .idxneg).nextDraw

theorem Rerun.sidElement (cfg : Config) (h : Rerun t a b) (hlen : 2 * a.idxCount.toNat ≤ a.srcLen.toNat) :
    Rerun t (a.sidElement cfg) (b.sidElement cfg) := by
  simp only [State.sidElement, h.seq, h.idxCount]
  split
  next q _ =>
    by_cases hcur : q.cur < a.idxCount.toNat
    · simp only [hcur, if_true, h.streamValue hlen hcur]
      split_ifs
      · exact h.sidPrime hlen _ _
      · exact h.sidEmit cfg q _
    · simp only [hcur, if_false]
      exact h.sidEnd q.nt
  next => exact h

theorem Rerun.sidElements (cfg : Config) (k : Nat) (h : Rerun t a b)
    (hlen : 2 * a.idxCount.toNat ≤ a.srcLen.toNat) : Rerun t (a.sidElements cfg k) (b.sidElements cfg k) := by
  induction k generalizing a b with
  | zero => exact h
  | succ k ih =>
    have hkept := (WritesOnly.refl [.tri, .triCount] a).sidElement cfg (by simp) (by simp)
    exact ih (h.sidElement cfg hlen) (by rwa [hkept.idxCount, hkept.srcLen])

theorem Rerun.decstripStart (h : Rerun t a b) : Rerun t (decstripStart a) (decstripStart b) :=
  { h with
    status := h.status.and _
    triCount := .inl rfl
    seq := rfl }

theorem Rerun.decstripWith (cfg : Config) (h : Rerun t a b) : Rerun t (decstripWith cfg a) (decstripWith cfg b) := by
  simp only [Machine.decstripWith, h.srcLen, h.idxCount]
  split_ifs with hlen
  · exact h.decstripStart.raise _
  · have hstream : 2 * (Machine.decstripStart a).idxCount.toNat ≤ (Machine.decstripStart a).srcLen.toNat :=
      Nat.not_lt.mp hlen
    have hkept := (WritesOnly.refl [.triCount] (Machine.decstripStart a)).sidPrime (by simp) 0 0
    exact (h.decstripStart.sidPrime hstream 0 0).sidElements cfg _ (by rwa [hkept.idxCount, hkept.srcLen])

end

/-- The five commands (R81). -/
def commands : List Instr := [.nop, .decblk, .dectex, .decstrip, .clr]

/-- Every command keeps the two runs in step. -/
theorem Rerun.exec {i : Instr} {t a b a' : State} (h : Rerun t a b) (hi : i ∈ commands) (ha : exec i a = .next a') :
    ∃ b', exec i b = .next b' ∧ Rerun t a' b' := by
  cases i with
  | nop => cases ha; exact ⟨b, rfl, h⟩
  | decblk => cases ha; exact ⟨_, rfl, h.blkInfo ▸ ((h.clearFlag .done).decodeToCol _).setFlag .done⟩
  | dectex => cases ha; exact ⟨_, rfl, h.dectexWith config⟩
  | decstrip => cases ha; exact ⟨_, rfl, h.decstripWith config⟩
  | clr => cases ha; exact ⟨_, rfl, h.clearStatus⟩
  | infoInd | infoDiff | idxRestart => simp [commands] at hi

/-- A command's run does not depend on the sequencer that the one before it found: it starts from scratch (R252) or
does not touch it. -/
theorem exec_withSeq_of_exec {i : Instr} {s t : State} (hi : i ∈ commands) (ht : exec i s = .next t) :
    exec i { t with seq := s.seq } = exec i t := by
  cases i with
  | nop => cases ht; rfl
  | decblk =>
    have hseq : t.seq = s.seq := by
      cases ht
      simp [State.decodeToCol]
    rw [← hseq]
  | dectex => rfl
  | decstrip => rfl
  | clr => cases ht; rfl
  | infoInd | infoDiff | idxRestart => simp [commands] at hi

/-- Every command completes (R260). -/
theorem exec_next_of_command {i : Instr} (hi : i ∈ commands) (s : State) : ∃ t, exec i s = .next t := by
  cases i with
  | nop | decblk | dectex | decstrip | clr => exact ⟨_, rfl⟩
  | infoInd | infoDiff | idxRestart => simp [commands] at hi

/-- Settles O41: the second run goes in step with the first one until that has reached the state the second began
in. -/
theorem commandsAreIdempotent : Obligations.CommandsAreIdempotent := by
  intro i hi s hs hwritten
  obtain ⟨t, ht⟩ := exec_next_of_command hi s
  obtain ⟨u, hu, hrerun⟩ := (Rerun.start ht hwritten).exec hi ht
  rw [exec_withSeq_of_exec hi ht] at hu
  have hinv : Inv t := hs.exec ht
  exact ⟨t, u, ht, hu, hrerun.eq_of_reached hinv (hinv.exec hu)⟩

end Sys2Proof.Machine
end

section
namespace Sys2Proof.Machine

/-! ## Encodings

The fields of a word are blocks of binary digits of its number (R9); what the encoder adds up, the decoder takes
apart, and the other way round. -/

theorem fieldAt_succ (w : Word) (lo width : Nat) : fieldAt w lo (width + 1) = w.toNat / 2 ^ lo % 2 ^ (width + 1) := by
  simp only [fieldAt, bitField, Nat.add_succ_sub_one, Nat.add_sub_cancel_left]

theorem fieldAt_lt (w : Word) (lo width : Nat) : fieldAt w lo (width + 1) < 2 ^ (width + 1) := by
  rw [fieldAt_succ]
  exact Nat.mod_lt _ (Nat.two_pow_pos _)

theorem toNat_getLsbD (w : Word) (i : Nat) : (w.getLsbD i).toNat = w.toNat / 2 ^ i % 2 := by
  simp only [BitVec.getLsbD, Nat.toNat_testBit]

theorem getLsbD_eq_of_digit {w : Word} {i : Nat} {b : Bool} (h : w.toNat / 2 ^ i % 2 = b.toNat) : w.getLsbD i = b := by
  rw [← toNat_getLsbD] at h
  cases b <;> simpa using h

/-- Bit 1 clear is the individual mode (R85). -/
theorem decodeInfo_of_bit_clear {w : Word} (h : w.getLsbD 1 = false) : decodeInfo w = .infoInd (decodeInd w) := by
  simp only [decodeInfo, h, Bool.false_eq_true, if_false]

/-- Bit 1 set is the differential mode (R85). -/
theorem decodeInfo_of_bit_set {w : Word} (h : w.getLsbD 1 = true) : decodeInfo w = .infoDiff (decodeDiff w) := by
  simp only [decodeInfo, h, if_true]

theorem IndInfo.wellFormed_iff {f : IndInfo} : f.wellFormed = true ↔
    (f.r1 < 16 ∧ f.r2 < 16 ∧ f.g1 < 16 ∧ f.g2 < 16 ∧ f.b1 < 16 ∧ f.b2 < 16) ∧ f.sel1 < 8 ∧ f.sel2 < 8 := by
  simp only [IndInfo.wellFormed, Bool.and_eq_true, decide_eq_true_eq, and_assoc]

theorem DiffInfo.wellFormed_iff {f : DiffInfo} : f.wellFormed = true ↔
    (f.r < 32 ∧ f.g < 32 ∧ f.b < 32) ∧ (f.dr < 8 ∧ f.dg < 8 ∧ f.db < 8) ∧ f.sel1 < 8 ∧ f.sel2 < 8 := by
  simp only [DiffInfo.wellFormed, Bool.and_eq_true, decide_eq_true_eq, and_assoc]

/-- Every term is known to fit by the lemma of its constructor (`Laws/PerInstr.lean`). -/
theorem encode_bits_lt {i : Instr} (h : i.wellFormed = true) : (encode i).bits < 256 ^ (encode i).format.bytes := by
  have hfits : Laws.EncodingFits.Statement i := by
    cases i with
    | nop => exact Laws.EncodingFits.nop
    | decblk => exact Laws.EncodingFits.decblk
    | dectex => exact Laws.EncodingFits.dectex
    | decstrip => exact Laws.EncodingFits.decstrip
    | clr => exact Laws.EncodingFits.clr
    | infoInd f => exact Laws.EncodingFits.infoInd f
    | infoDiff f => exact Laws.EncodingFits.infoDiff f
    | idxRestart => exact Laws.EncodingFits.idxRestart
  have hlt := hfits h
  rwa [Nat.pow_mul] at hlt

theorem toNat_ofNat_encodeInd {f : IndInfo} (h : f.wellFormed = true) :
    (BitVec.ofNat 32 (encodeInd f)).toNat = encodeInd f := by
  rw [BitVec.toNat_ofNat]
  exact Nat.mod_eq_of_lt (Laws.EncodingFits.infoInd f h)

theorem toNat_ofNat_encodeDiff {f : DiffInfo} (h : f.wellFormed = true) :
    (BitVec.ofNat 32 (encodeDiff f)).toNat = encodeDiff f := by
  rw [BitVec.toNat_ofNat]
  exact Nat.mod_eq_of_lt (Laws.EncodingFits.infoDiff f h)

/-- An individual-mode word has bit 1 clear and decodes to its fields (R85, R86). -/
theorem decodeInfo_encodeInd {f : IndInfo} (h : f.wellFormed = true) :
    decodeInfo (BitVec.ofNat 32 (encodeInd f)) = .infoInd f := by
  have hw := toNat_ofNat_encodeInd h
  obtain ⟨⟨hr1, hr2, hg1, hg2, hb1, hb2⟩, hs1, hs2⟩ := IndInfo.wellFormed_iff.mp h
  have hbit := Bool.toNat_lt f.flip
  generalize BitVec.ofNat 32 (encodeInd f) = w at hw ⊢
  simp only [encodeInd, infoLayout] at hw
  have hmode : w.getLsbD 1 = false := getLsbD_eq_of_digit (by simp only [Bool.toNat_false]; omega)
  have hflip : w.getLsbD 0 = f.flip := getLsbD_eq_of_digit (by omega)
  have hfields : decodeInd w = f := by
    obtain ⟨r1, r2, g1, g2, b1, b2, sel1, sel2, flip⟩ := f
    simp only [decodeInd, fieldAt_succ, infoLayout, hflip, IndInfo.mk.injEq, and_true]
    dsimp only at *
    omega
  rw [decodeInfo_of_bit_clear hmode, hfields]

/-- A differential-mode word has bit 1 set and decodes to its fields (R85, R87). -/
theorem decodeInfo_encodeDiff {f : DiffInfo} (h : f.wellFormed = true) :
    decodeInfo (BitVec.ofNat 32 (encodeDiff f)) = .infoDiff f := by
  have hw := toNat_ofNat_encodeDiff h
  obtain ⟨⟨hr, hg, hb⟩, ⟨hdr, hdg, hdb⟩, hs1, hs2⟩ := DiffInfo.wellFormed_iff.mp h
  have hbit := Bool.toNat_lt f.flip
  generalize BitVec.ofNat 32 (encodeDiff f) = w at hw ⊢
  simp only [encodeDiff, infoLayout] at hw
  have hmode : w.getLsbD 1 = true := getLsbD_eq_of_digit (by simp only [Bool.toNat_true]; omega)
  have hflip : w.getLsbD 0 = f.flip := getLsbD_eq_of_digit (by omega)
  have hfields : decodeDiff w = f := by
    obtain ⟨r, dr, g, dg, b, db, sel1, sel2, flip⟩ := f
    simp only [decodeDiff, fieldAt_succ, infoLayout, hflip, DiffInfo.mk.injEq, and_true]
    dsimp only at *
    omega
  rw [decodeInfo_of_bit_set hmode, hfields]

theorem decodeValue_encode {i : Instr} (h : i.wellFormed = true) :
    decodeValue (encode i).format (encode i).bits = .ok i := by
  cases i with
  | infoInd f => exact congrArg Except.ok (decodeInfo_encodeInd h)
  | infoDiff f => exact congrArg Except.ok (decodeInfo_encodeDiff h)
  | _ => rfl

/-- Decoding the bytes of a number, with anything after them, is decoding the number. -/
theorem decodeBytes_leBytes_append (f : Format) {v : Nat} (hv : v < 256 ^ f.bytes) (rest : List Byte) :
    decodeBytes f (leBytes f.bytes v ++ rest) = (decodeValue f v).map fun i => (i, rest) := by
  have hlen := length_leBytes f.bytes v
  have hlong : ¬ (leBytes f.bytes v ++ rest).length < f.bytes := by
    rw [List.length_append, hlen]
    omega
  rw [decodeBytes, if_neg hlong, List.take_left' hlen, List.drop_left' hlen, leValue_leBytes, Nat.mod_eq_of_lt hv]

/-- Settles O5: the decoder of each format takes apart what the encoder added up, and bytes spell their number. -/
theorem decodeInvertsEncode : Obligations.DecodeInvertsEncode := by
  intro i h
  refine ⟨decodeValue_encode h, fun rest => ?_⟩
  rw [encodeBytes, decodeBytes_leBytes_append _ (encode_bits_lt h), decodeValue_encode h]
  rfl

theorem wellFormed_decodeInd (w : Word) : (decodeInd w).wellFormed = true :=
  IndInfo.wellFormed_iff.mpr ⟨⟨fieldAt_lt w 28 3, fieldAt_lt w 24 3, fieldAt_lt w 20 3, fieldAt_lt w 16 3,
    fieldAt_lt w 12 3, fieldAt_lt w 8 3⟩, fieldAt_lt w 5 2, fieldAt_lt w 2 2⟩

theorem wellFormed_decodeDiff (w : Word) : (decodeDiff w).wellFormed = true :=
  DiffInfo.wellFormed_iff.mpr ⟨⟨fieldAt_lt w 27 4, fieldAt_lt w 19 4, fieldAt_lt w 11 4⟩,
    ⟨fieldAt_lt w 24 2, fieldAt_lt w 16 2, fieldAt_lt w 8 2⟩, fieldAt_lt w 5 2, fieldAt_lt w 2 2⟩

/-- A number's low digits split at bit `lo` into those below and a field. -/
theorem toNat_mod_split (w : Word) (lo width : Nat) :
    w.toNat % 2 ^ (lo + (width + 1)) = w.toNat % 2 ^ lo + fieldAt w lo (width + 1) * 2 ^ lo := by
  rw [fieldAt_succ, Nat.pow_add, Nat.mod_mul, Nat.mul_comm (2 ^ lo)]

theorem toNat_mod_four (w : Word) : w.toNat % 2 ^ 2 = (w.getLsbD 1).toNat * 2 + (w.getLsbD 0).toNat := by
  rw [toNat_getLsbD, toNat_getLsbD]
  omega

/-- Where bit 1 is 0 the fields of R86 hold all the other bits. -/
theorem encodeInd_decodeInd {w : Word} (h : w.getLsbD 1 = false) : encodeInd (decodeInd w) = w.toNat := by
  have hall : w.toNat % 2 ^ 32 = w.toNat := Nat.mod_eq_of_lt w.isLt
  have hlow := toNat_mod_four w
  rw [h, Bool.toNat_false] at hlow
  simp only [encodeInd, decodeInd, infoLayout]
  linarith [toNat_mod_split w 28 3, toNat_mod_split w 24 3, toNat_mod_split w 20 3, toNat_mod_split w 16 3,
    toNat_mod_split w 12 3, toNat_mod_split w 8 3, toNat_mod_split w 5 2, toNat_mod_split w 2 2]

/-- Where bit 1 is 1 the fields of R87 hold all the other bits. -/
theorem encodeDiff_decodeDiff {w : Word} (h : w.getLsbD 1 = true) : encodeDiff (decodeDiff w) = w.toNat := by
  have hall : w.toNat % 2 ^ 32 = w.toNat := Nat.mod_eq_of_lt w.isLt
  have hlow := toNat_mod_four w
  rw [h, Bool.toNat_true] at hlow
  simp only [encodeDiff, decodeDiff, infoLayout]
  linarith [toNat_mod_split w 27 4, toNat_mod_split w 24 2, toNat_mod_split w 19 4, toNat_mod_split w 16 2,
    toNat_mod_split w 11 4, toNat_mod_split w 8 2, toNat_mod_split w 5 2, toNat_mod_split w 2 2]

theorem field_one (w : Word) (i : Nat) : Reference.field w i 1 = (w.getLsbD i).toNat := by
  rw [toNat_getLsbD, Reference.field, BitVec.extractLsb'_toNat, Nat.shiftRight_eq_div_pow, Nat.pow_one]

/-- Settles O6: by bit 1, the mode; the fields of either mode and the mode bit are all 32 bits. -/
theorem everyBlockInfoWordIsLegal : Obligations.EveryBlockInfoWordIsLegal := by
  intro w
  rw [field_one]
  cases h : w.getLsbD 1 with
  | false =>
    rw [decodeInfo_of_bit_clear h]
    exact ⟨wellFormed_decodeInd w, congrArg (Coded.mk .info32) (encodeInd_decodeInd h), by simp⟩
  | true =>
    rw [decodeInfo_of_bit_set h]
    exact ⟨wellFormed_decodeDiff w, congrArg (Coded.mk .info32) (encodeDiff_decodeDiff h), by simp⟩

/-- Settles O4: the decoder computes each of the words. -/
theorem writtenOutWordsDecode : Obligations.WrittenOutWordsDecode :=
  ⟨rfl, rfl, rfl, rfl, rfl, rfl, rfl, rfl, rfl, rfl⟩

end Sys2Proof.Machine
end

section
namespace Sys2Proof.Machine

/-! ## The colours of a block

The restatement of the codec in `Reference`, by the fields of the block-info word, agrees with the operands of the
model. -/

section
open Reference

theorem fieldAt_eq_field (w : Word) (lo width : Nat) : fieldAt w lo (width + 1) = field w lo (width + 1) :=
  (field_eq_bitField w lo width).symm

theorem field_lt (w : Word) (lo width : Nat) : field w lo width < 2 ^ width := (w.extractLsb' lo width).isLt

theorem sdelta_eq_signed3 (d : Nat) : sdelta d = signed3 d := by
  simp only [sdelta, signed3, ← Nat.lt_succ_iff]

theorem exp4_eq (v : Int) : exp4 v = 17 * v := by
  rw [exp4]
  ring

theorem exp5_eq_expand5 (v : Int) : exp5 v = expand5 v := by
  rw [exp5, expand5, mul_comm]

theorem outOfRange_eq (w : Word) : outOfRange w = (w.getLsbD 1 &&
    (sumOutOfRange (channelSum w 0) || sumOutOfRange (channelSum w 1) || sumOutOfRange (channelSum w 2))) := by
  cases h : w.getLsbD 1 with
  | false => simp only [outOfRange, field_one, h, Bool.toNat_false, Nat.zero_ne_one, decide_false, Bool.false_and]
  | true =>
    rw [Bool.eq_iff_iff]
    simp [outOfRange, field_one, h, List.range_succ, sumOutOfRange, or_assoc]

/-- What a block-info word says of its block (R121 to R125), by `Reference`. -/
def referenceBlock (w : Word) : BlockInfo where
  base1 := ⟨baseChannel w false 0, baseChannel w false 1, baseChannel w false 2⟩
  base2 := ⟨baseChannel w true 0, baseChannel w true 1, baseChannel w true 2⟩
  sel1 := field w 5 3
  sel2 := field w 2 3
  flip := w.getLsbD 0
  oor := outOfRange w

theorem blockOfWord_eq_referenceBlock (w : Word) : blockOfWord w = referenceBlock w := by
  have hmode := field_one w 1
  rw [blockOfWord, referenceBlock, outOfRange_eq]
  cases h : w.getLsbD 1 with
  | false =>
    rw [h] at hmode
    simp [indBlock, decodeInd, fieldAt_eq_field, infoLayout, exp4_eq, baseChannel, hmode]
  | true =>
    rw [h] at hmode
    simp [diffBlock, diffSum, decodeDiff, fieldAt_eq_field, infoLayout, exp5_eq_expand5, sdelta_eq_signed3,
      baseChannel, hmode, channelSum]

theorem blockOfWord_oor (w : Word) : (blockOfWord w).oor = outOfRange w := by
  rw [blockOfWord_eq_referenceBlock]
  rfl

theorem inSubBlock1_eq (w : Word) (i : Nat) : inSubBlock1 (w.getLsbD 0) i = !second w i := by
  rw [inSubBlock1, second, field_one, Bool.eq_iff_iff]
  cases w.getLsbD 0 with
  | false => simp [Nat.lt_succ_iff]
  | true => simp

theorem pixelIndex_eq (pix : Word) (i : Nat) : pixelIndex pix i = 2 * field pix (i + 16) 1 + field pix i 1 := by
  rw [pixelIndex, field_one, field_one]

theorem modifier_eq_tableEntry : ∀ sel < 8, ∀ mi < 4, modifier sel mi = tableEntry sel mi := by decide

theorem modifier_field_pixelIndex (w pix : Word) (lo i : Nat) :
    modifier (field w lo 3) (pixelIndex pix i) =
      tableEntry (field w lo 3) (2 * field pix (i + 16) 1 + field pix i 1) := by
  have hhigh := field_lt pix (i + 16) 1
  have hlow := field_lt pix i 1
  rw [pixelIndex_eq]
  exact modifier_eq_tableEntry _ (field_lt w lo 3) _ (by omega)

/-- The clamp keeps a byte's range (R11). -/
theorem toNat_clamp255 (v : Int) : ((clamp255 v).toNat : Int) = max 0 (min 255 v) := by
  unfold clamp255
  split_ifs <;> simp <;> omega

/-- The three channels of a position's colour (R126 to R129). -/
theorem blockColour_channels (w pix : Word) (i : Nat) :
    ((blockColour (blockOfWord w) pix i).r.toNat : Int) = channel w pix i 0 ∧
      ((blockColour (blockOfWord w) pix i).g.toNat : Int) = channel w pix i 1 ∧
      ((blockColour (blockOfWord w) pix i).b.toNat : Int) = channel w pix i 2 := by
  rw [blockOfWord_eq_referenceBlock]
  simp only [blockColour, referenceBlock, inSubBlock1_eq, channel, modifier_field_pixelIndex]
  cases second w i <;> exact ⟨toNat_clamp255 _, toNat_clamp255 _, toNat_clamp255 _⟩

theorem toNat_rgb8_blockColour (w pix : Word) (i : Nat) :
    ((rgb8 (blockColour (blockOfWord w) pix i)).toNat : Int) = rgbNumber w pix i := by
  obtain ⟨hr, hg, hb⟩ := blockColour_channels w pix i
  rw [rgbNumber, ← hr, ← hg, ← hb, rgb8, BitVec.toNat_ofNat]
  omega

theorem rgba8_blockColour (w pix : Word) (i : Nat) :
    rgba8 (blockColour (blockOfWord w) pix i) = rgbaWord w pix i := by
  obtain ⟨hr, hg, hb⟩ := blockColour_channels w pix i
  rw [rgbaWord, rgbNumber, ← hr, ← hg, ← hb, rgba8, ← BitVec.ofInt_natCast]
  congr 1
  push_cast
  ring

/-! ### Where a block's pixels go -/

section
variable {q : TxdSeq} {len : Nat}

theorem TxdSeq.Legal.x_lt (hq : q.Legal len) {i : Nat} (hi : i < 16) : q.x i < q.w := by
  obtain ⟨hw, -, -, -⟩ := goodGeometry_iff.mp hq.geometry
  have hs := hq.superTiles
  have hcol := Nat.mod_lt (q.n / 4) (show 0 < q.s by omega)
  rw [TxdSeq.x]
  omega

/-- A block that is left lies in one of the image's `h / 8` rows of super-tiles. -/
theorem TxdSeq.Legal.y_lt (hq : q.Legal len) (hn : q.n < q.nblk) (i : Nat) : q.y i < q.h := by
  obtain ⟨hw, hh, hw8, hh8⟩ := goodGeometry_iff.mp hq.geometry
  have hs := hq.superTiles
  have hrow : q.n / 4 / q.s < q.h / 8 := by
    rw [Nat.div_div_eq_div_mul, Nat.div_lt_iff_lt_mul (by omega)]
    calc q.n < q.w / 4 * (q.h / 4) := hn
      _ = 2 * q.s * (2 * (q.h / 8)) := by congr 1 <;> omega
      _ = q.h / 8 * (4 * q.s) := by ring
  rw [TxdSeq.y]
  omega

/-- The sixteen positions of a block have sixteen entries: an entry's column and row give the position back. -/
theorem TxdSeq.Legal.entry_inj (hq : q.Legal len) (hn : q.n < q.nblk) {i j : Nat} (hi : i < 16) (hj : j < 16)
    (h : q.entry i = q.entry j) : i = j := by
  have hxi := hq.x_lt hi
  have hxj := hq.x_lt hj
  have hyi := hq.y_lt hn i
  have hyj := hq.y_lt hn j
  have hx : q.x i = q.x j := by
    have hmod := congrArg (· % q.w) h
    simpa only [TxdSeq.entry, Nat.mul_add_mod_self_right, Nat.mod_eq_of_lt hxi, Nat.mod_eq_of_lt hxj] using hmod
  have hy : q.y i = q.y j := by
    simp only [TxdSeq.entry, hx, Nat.add_right_cancel_iff] at h
    have := Nat.eq_of_mul_eq_mul_right (by omega) h
    omega
  simp only [TxdSeq.x, TxdSeq.y] at hx hy
  omega

theorem TxdSeq.Legal.entry_eq_place (hq : q.Legal len) (i : Nat) : q.entry i = place q.w q.h q.n i := by
  have hx : q.x i = 8 * (q.n / 4 % (q.w / 8)) + (if q.n % 2 = 1 then 4 else 0) + i / 4 := by
    rw [TxdSeq.x, hq.superTiles]
    split_ifs <;> omega
  have hy : q.y i = 8 * (q.n / 4 / (q.w / 8)) + (if q.n % 4 < 2 then 0 else 4) + i % 4 := by
    rw [TxdSeq.y, hq.superTiles]
    split_ifs <;> omega
  rw [TxdSeq.entry, hx, hy, place]

/-- Where the entries differ each position's pixel stands after the block. -/
theorem placeBlock_read_entry (q : TxdSeq) (k : BlockInfo) (pixWord : Word) (m : Memory Word)
    (hinj : ∀ i < 16, ∀ j < 16, q.entry i = q.entry j → i = j) {i : Nat} (hi : i < 16) :
    (placeBlock q k pixWord m).read (q.entry i) = some (rgba8 (blockColour k pixWord i)) := by
  suffices H : ∀ n ≤ 16, i < n → ((List.range n).foldl
      (fun m j => m.write (q.entry j) (rgba8 (blockColour k pixWord j))) m).read (q.entry i) =
        some (rgba8 (blockColour k pixWord i)) from H 16 le_rfl hi
  intro n
  induction n with
  | zero => exact fun _ h => absurd h (Nat.not_lt_zero i)
  | succ n ih =>
    intro hn hin
    rw [List.range_succ, List.foldl_append, List.foldl_cons, List.foldl_nil]
    by_cases hlast : i = n
    · rw [hlast, Memory.read_write_self]
    · rw [Memory.read_write_ne _ _ fun h => hlast (hinj i hi n (by omega) h)]
      exact ih (by omega) (by omega)

/-- The pixel-index word is the first word of the block's last 8 bytes (R84, R90, R157). -/
theorem TxdSeq.Legal.pixOffset_eq (hq : q.Legal len) :
    q.pixOffset config = q.pbase + q.n * q.bpb + (q.bpb - 8) := by
  rcases hq.blockBytes with hb | hb <;> simp [TxdSeq.pixOffset, TxdSeq.colourOffset, config, hb]

end

/-! ### A block-info word as an instruction -/

theorem status_setIf_diffoor (status : Word) (b : Bool) :
    (if b then status ||| BitVec.twoPow 32 StatusFlag.diffoor.bit else status) =
      status ||| if b then 0x10#32 else 0x00#32 := by
  cases b
  · exact (BitVec.or_zero).symm
  · rfl

theorem State.decodeToCol_eq (s : State) (k : BlockInfo) :
    s.decodeToCol k =
      { s with
        col := blockWords k s.blkPix
        status := if k.oor then s.status ||| BitVec.twoPow 32 StatusFlag.diffoor.bit else s.status } := by
  cases h : k.oor <;> simp [State.decodeToCol, State.setFlagIf, State.setFlag, h]

/-- Where TXD has a block to decode, a block-info word decodes it (R129, R161, R163). -/
theorem decodeBlockWord_block {w : Word} {s t : State} {q : TxdSeq} (ht : decodeBlockWord (blockOfWord w) s = t)
    (hs : s.seq = .txd q) (hq : q.Legal s.srcLen.toNat) (hn : q.n < q.nblk) :
    t = { s with
          pix := t.pix
          seq := .txd { q with n := q.n + 1 }
          status := s.status ||| if outOfRange w then 0x10#32 else 0x00#32
          draws := s.draws + 1 } ∧
    (∀ i < 16, t.pix.read (place q.w q.h q.n i) =
      some (rgbaWord w (s.memRead32 (q.pbase + q.n * q.bpb + (q.bpb - 8))) i)) ∧
    ∀ p, (∀ i < 16, p ≠ place q.w q.h q.n i) → t.pix.read p = s.pix.read p := by
  have hreading : s.txdReading = some q := by simp only [State.txdReading, hs, hn, if_true]
  subst ht
  simp only [decodeBlockWord, hreading, State.decodeToPix_eq, blockOfWord_oor, status_setIf_diffoor,
    hq.pixOffset_eq, ← hq.entry_eq_place]
  refine ⟨trivial, fun i hi => ?_, fun p hp => placeBlock_read_ne _ _ _ _ fun i hi => (hp i hi).symm⟩
  rw [placeBlock_read_entry _ _ _ _ (fun i hi j hj => hq.entry_inj hn hi hj) hi, rgba8_blockColour]

theorem State.txdReading_eq_none {s : State} (hs : ∀ q, s.seq = .txd q → q.nblk ≤ q.n) : s.txdReading = none := by
  refine Option.eq_none_iff_forall_ne_some.mpr fun q hq => ?_
  obtain ⟨hseq, hn⟩ := State.txdReading_eq_some hq
  exact Nat.not_lt.mpr (hs q hseq) hn

/-- Where TXD has none, a block-info word decodes the pixel indices of `BLK_PIX` into `COL` (R129, R135). -/
theorem decodeBlockWord_col {w : Word} {s t : State} (ht : decodeBlockWord (blockOfWord w) s = t)
    (hs : ∀ q, s.seq = .txd q → q.nblk ≤ q.n) :
    t = { s with col := t.col, status := s.status ||| if outOfRange w then 0x10#32 else 0x00#32 } ∧
    ∀ i : Fin 16, ((t.col[i]).toNat : Int) = rgbNumber w s.blkPix i := by
  rw [← ht, decodeBlockWord, State.txdReading_eq_none hs]
  simp only [State.decodeToCol_eq, blockOfWord_oor, status_setIf_diffoor]
  exact ⟨trivial, fun i => by rw [blockWords_get, toNat_rgb8_blockColour]⟩

theorem blockOfWord_encodeInd {f : IndInfo} (h : f.wellFormed = true) :
    blockOfWord (BitVec.ofNat 32 (encodeInd f)) = indBlock f := by
  obtain ⟨g, hi, hb⟩ | ⟨g, hi, -⟩ := decodeInfo_block (BitVec.ofNat 32 (encodeInd f)) <;>
    rw [decodeInfo_encodeInd h] at hi <;> cases hi
  exact hb

theorem blockOfWord_encodeDiff {f : DiffInfo} (h : f.wellFormed = true) :
    blockOfWord (BitVec.ofNat 32 (encodeDiff f)) = diffBlock f := by
  obtain ⟨g, hi, -⟩ | ⟨g, hi, hb⟩ := decodeInfo_block (BitVec.ofNat 32 (encodeDiff f)) <;>
    rw [decodeInfo_encodeDiff h] at hi <;> cases hi
  exact hb

/-- Individual mode is never out of range (R125). -/
theorem outOfRange_encodeInd {f : IndInfo} (h : f.wellFormed = true) :
    outOfRange (BitVec.ofNat 32 (encodeInd f)) = false := by
  rw [← blockOfWord_oor, blockOfWord_encodeInd h]
  rfl

/-- Settles O20: the word's own block, which leaves `STATUS` as it is in individual mode. -/
theorem individualInfoWordDecodesItsBlock : Obligations.IndividualInfoWordDecodesItsBlock := by
  intro f s hf
  have hrun : exec (.infoInd f) s = .next (decodeBlockWord (blockOfWord (BitVec.ofNat 32 (encodeInd f))) s) := by
    rw [blockOfWord_encodeInd hf]
    rfl
  have hstatus : (s.status ||| if outOfRange (BitVec.ofNat 32 (encodeInd f)) then 0x10#32 else 0x00#32) = s.status := by
    simp [outOfRange_encodeInd hf]
  refine ⟨fun q hs hq hn => ⟨_, hrun, ?_⟩, fun hs => ⟨_, hrun, ?_⟩⟩
  · have h := decodeBlockWord_block (w := BitVec.ofNat 32 (encodeInd f)) rfl hs hq hn
    rwa [hstatus] at h
  · have h := decodeBlockWord_col (w := BitVec.ofNat 32 (encodeInd f)) rfl hs
    rwa [hstatus] at h

/-- Settles O21: the word's own block, with `DIFFOOR` by `oor`. -/
theorem differentialInfoWordDecodesItsBlock : Obligations.DifferentialInfoWordDecodesItsBlock := by
  intro f s hf
  have hrun : exec (.infoDiff f) s = .next (decodeBlockWord (blockOfWord (BitVec.ofNat 32 (encodeDiff f))) s) := by
    rw [blockOfWord_encodeDiff hf]
    rfl
  exact ⟨fun q hs hq hn => ⟨_, hrun, decodeBlockWord_block rfl hs hq hn⟩,
    fun hs => ⟨_, hrun, decodeBlockWord_col rfl hs⟩⟩

end
end Sys2Proof.Machine
end

section
namespace Sys2Proof.Machine

/-! ## The block colour codec -/

section
open Reference

/-! ### The sub-blocks and their modifiers -/

/-- Without the flip, sub-block 1 is the left half of the tile (R128). -/
theorem inSubBlock1_noFlip (i : Nat) : inSubBlock1 false i = decide (i / 4 < 2) := by
  simp only [inSubBlock1, Bool.false_eq_true, if_false, decide_eq_decide]
  omega

/-- With the flip, sub-block 1 is the upper half of the tile (R128). -/
theorem inSubBlock1_flip (i : Nat) : inSubBlock1 true i = decide (i % 4 < 2) := by
  simp only [inSubBlock1, if_true, decide_eq_decide]
  omega

theorem tableEntry_mem_row (sel : Nat) {mi : Nat} (h : mi < 4) :
    tableEntry sel mi ∈ [tableEntry sel 0, tableEntry sel 1, tableEntry sel 2, tableEntry sel 3] :=
  List.mem_map_of_mem (f := tableEntry sel) (List.mem_range.mpr h)

theorem blockColour_eq_shade (w pix : Word) (i : Nat) :
    blockColour (blockOfWord w) pix i =
      shade (if second w i then (blockOfWord w).base2 else (blockOfWord w).base1)
        (tableEntry (field w (if second w i then 2 else 5) 3) (2 * field pix (i + 16) 1 + field pix i 1)) := by
  rw [blockOfWord_eq_referenceBlock]
  simp only [blockColour, referenceBlock, inSubBlock1_eq, modifier_field_pixelIndex]
  cases second w i <;> rfl

/-- Settles O18: each half is two columns, or two rows, of four. -/
theorem subBlocksAreHalvesOfTheTile : Obligations.SubBlocksAreHalvesOfTheTile := by
  intro i hi
  simp only [inSubBlock1_noFlip, inSubBlock1_flip, decide_eq_true_eq, decide_eq_false_iff_not, List.mem_cons,
    List.not_mem_nil, or_false]
  omega

/-- Settles O17: the pixel index is below 4, so it chooses among the row's four values. -/
theorem modifierIsOneOfTheRowsFour : Obligations.ModifierIsOneOfTheRowsFour := by
  intro w pix i _
  have hhigh := field_lt pix (i + 16) 1
  have hlow := field_lt pix i 1
  exact ⟨_, tableEntry_mem_row _ (by omega), rfl, blockColour_eq_shade w pix i⟩

/-! ### Base colours -/

theorem exp5_strictMono : StrictMono exp5 := by
  intro v w h
  simp only [exp5]
  omega

/-- Settles O16: the closed forms are the definitions, up to the order of the factors; the table is computed. -/
theorem expansionsHaveTheirClosedForms : Obligations.ExpansionsHaveTheirClosedForms :=
  ⟨exp4_eq, exp5_eq_expand5, rfl, rfl, fun _ _ h => exp5_strictMono h, by decide⟩

/-- Settles O14: the base colours and `oor` of `Reference`, where the mode bit is 0. -/
theorem individualModeBaseColours : Obligations.IndividualModeBaseColours := by
  intro w hmode
  rw [blockOfWord_eq_referenceBlock]
  simp [referenceBlock, baseChannel, outOfRange, hmode]

theorem outOfRange_iff {w : Word} (h : field w 1 1 = 1) :
    outOfRange w = true ↔ ∃ c < 3, channelSum w c < 0 ∨ 31 < channelSum w c := by
  simp [outOfRange, h]

/-- Settles O15: the base colours and `oor` of `Reference`, where the mode bit is 1. -/
theorem differentialModeBaseColours : Obligations.DifferentialModeBaseColours := by
  intro w hmode
  rw [blockOfWord_oor, blockOfWord_eq_referenceBlock]
  simp [referenceBlock, baseChannel, channelSum, hmode, outOfRange_iff hmode]

/-! ### `DECBLK` -/

theorem clear_or_self (x y : Word) : (x &&& ~~~y) ||| y = x ||| y := by
  ext i hi
  cases hy : y[i] <;> simp [hy]

/-- What `DECBLK` makes of `STATUS`: `DONE` is cleared, `DIFFOOR` set by `oor`, and `DONE` set (R125, R135). -/
theorem status_decblk (status : Word) (b : Bool) :
    ((status &&& ~~~0x01#32) ||| if b then 0x10#32 else 0x00#32) ||| 0x01#32 =
      status ||| if b then 0x11#32 else 0x01#32 := by
  have hbits : (if b then 0x10#32 else 0x00#32) ||| 0x01#32 = if b then 0x11#32 else 0x01#32 := by cases b <;> rfl
  rw [BitVec.or_assoc, BitVec.or_comm _ 0x01#32, ← BitVec.or_assoc, clear_or_self, BitVec.or_assoc,
    BitVec.or_comm 0x01#32, hbits]

theorem exec_decblk (s : State) :
    exec .decblk s = .next { s with
      col := blockWords (blockOfWord s.blkInfo) s.blkPix
      status := s.status ||| if outOfRange s.blkInfo then 0x11#32 else 0x01#32 } := by
  rw [← status_decblk, ← status_setIf_diffoor, ← blockOfWord_oor]
  simp only [exec, execDecblk, State.decodeToCol_eq]
  rfl

/-- Settles O13: the block of the operand registers, with `DIFFOOR` by `oor`. -/
theorem decblkDecodesTheOperandBlock : Obligations.DecblkDecodesTheOperandBlock :=
  ⟨rfl, fun s => ⟨_, exec_decblk s, rfl, fun i => by rw [blockWords_get, toNat_rgb8_blockColour]⟩⟩

end
end Sys2Proof.Machine
end

section
namespace Sys2Proof.Machine

/-! ## The outcomes of `DECTEX`

One lemma for each check that can fail (R153), then the statements about faults that follow from them. -/

section
open Reference

theorem dectexBody_unknownType (cfg : Config) {s : State} (htype : recognised cfg (pixTypeOf s.texFmt) = false) :
    dectexBody cfg s = s.raise .unsupportedPixelFormat :=
  if_pos htype

theorem dectexBody_badSize (cfg : Config) {s : State} {q : TxdSeq} (hq : q = TxdSeq.start cfg s.texGeom s.texFmt)
    (htype : recognised cfg (pixTypeOf s.texFmt) = true) (hsize : goodGeometry q.w q.h = false) :
    dectexBody cfg s = s.raise .badGeometry := by
  subst hq
  simp only [dectexBody, htype, hsize, Bool.true_eq_false, if_false, if_true]

theorem dectexBody_shortPayload (cfg : Config) {s : State} {q : TxdSeq}
    (hq : q = TxdSeq.start cfg s.texGeom s.texFmt) (htype : recognised cfg (pixTypeOf s.texFmt) = true)
    (hsize : goodGeometry q.w q.h = true) (hlen : s.srcLen.toNat < q.needed) :
    dectexBody cfg s = { s with pix := s.pix.forgetBelow (q.w * q.h) }.raise .truncatedInput := by
  subst hq
  simp only [dectexBody, htype, hsize, hlen, Bool.true_eq_false, if_false, if_true]

/-- What the checks after the header start from: the latches hold it and `DONE` is 0 (R150, R151). -/
def State.headerRead (s : State) : State := { latched s with status := s.status &&& ~~~1#32 }

@[simp] theorem State.headerRead_texGeom (s : State) : s.headerRead.texGeom = s.memRead32 8 := rfl
@[simp] theorem State.headerRead_texFmt (s : State) : s.headerRead.texFmt = s.memRead32 12 := rfl

theorem State.start_headerRead (s : State) :
    containerStart s = TxdSeq.start config s.headerRead.texGeom s.headerRead.texFmt := by
  rw [State.headerRead_texGeom, State.headerRead_texFmt, containerStart]

theorem latchHeader_dectexStart (s : State) : (dectexStart s).latchHeader = s.headerRead := by
  simp only [State.latchHeader, dectexStart_memRead32]
  rfl

theorem State.headerRead_raise (s : State) (e : ErrKind) : s.headerRead.raise e = faulted (latched s) e.code := rfl

theorem hasFlag_done_faulted (s : State) (code : Word) : (faulted s code).hasFlag .done = false := by
  simp [State.hasFlag, faulted, StatusFlag.bit]

section
variable {s : State}

theorem exec_dectex_header (h : 16 ≤ s.srcLen.toNat) : exec .dectex s = .next (dectexBody config s.headerRead) := by
  rw [← latchHeader_dectexStart]
  simp only [exec, execDectex, dectexWith, if_neg (Nat.not_lt.mpr h)]

theorem exec_dectex_shortHeader (h : s.srcLen.toNat < 16) :
    exec .dectex s = .next { faulted s 3#32 with texBlocks := 0, seq := .idle } := by
  simp only [exec, execDectex, dectexWith, if_pos h]
  rfl

theorem exec_dectex_unknownType (hheader : 16 ≤ s.srcLen.toNat) (htype : ¬TypeKnown s) :
    exec .dectex s = .next (faulted (latched s) 1#32) := by
  rw [typeKnown_iff, ← State.headerRead_texFmt, Bool.not_eq_true] at htype
  rw [exec_dectex_header hheader, dectexBody_unknownType config htype, State.headerRead_raise]
  rfl

theorem exec_dectex_badSize (hheader : 16 ≤ s.srcLen.toNat) (htype : TypeKnown s) (hsize : ¬SizeGood s) :
    exec .dectex s = .next (faulted (latched s) 5#32) := by
  rw [typeKnown_iff, ← State.headerRead_texFmt] at htype
  rw [sizeGood_iff, Bool.not_eq_true] at hsize
  rw [exec_dectex_header hheader, dectexBody_badSize config s.start_headerRead htype hsize, State.headerRead_raise]
  rfl

theorem exec_dectex_shortPayload (hheader : 16 ≤ s.srcLen.toNat) (htype : TypeKnown s) (hsize : SizeGood s)
    (hlen : ¬Complete s) : exec .dectex s =
      .next { faulted (latched s) 3#32 with pix := s.pix.forgetBelow (width s * height s) } := by
  rw [complete_iff hsize, Nat.not_le] at hlen
  rw [typeKnown_iff, ← State.headerRead_texFmt] at htype
  rw [sizeGood_iff] at hsize
  rw [exec_dectex_header hheader, dectexBody_shortPayload config s.start_headerRead htype hsize hlen, width_eq,
    height_eq]
  rfl

end

/-- Settles O23: check 1 comes before the header is read. -/
theorem dectexWithoutAHeaderIsTruncated : Obligations.DectexWithoutAHeaderIsTruncated :=
  fun _ => exec_dectex_shortHeader

/-- Settles O24: check 2 is the first one after the header. -/
theorem dectexUnsupportedPixelType : Obligations.DectexUnsupportedPixelType :=
  fun _ => exec_dectex_unknownType

/-- Settles O26: the image's entries are forgotten and hold no value of their own. -/
theorem dectexShortPayloadForgetsTheImage : Obligations.DectexShortPayloadForgetsTheImage := by
  intro s hheader htype hsize hlen
  refine ⟨_, exec_dectex_shortPayload hheader htype hsize hlen, rfl, fun p hp d => ?_, fun p hp => ?_⟩
  · simp only [State.pixEntry, Memory.read_forgetBelow, if_pos hp, Option.getD_none]
  · exact (Memory.read_forgetBelow s.pix _ p).trans (if_neg (Nat.not_lt.mpr hp))

end
end Sys2Proof.Machine
end

section
namespace Sys2Proof.Machine

/-! ## Where the pixels of an image go

A block and a position of it have one entry, and every entry of the image has a block and a position (R162). -/

section
open Reference

section
variable {q : TxdSeq} {len : Nat}

theorem TxdSeq.Legal.entry_mod (hq : q.Legal len) {i : Nat} (hi : i < 16) : q.entry i % q.w = q.x i := by
  rw [TxdSeq.entry, Nat.mul_add_mod_self_right, Nat.mod_eq_of_lt (hq.x_lt hi)]

theorem TxdSeq.Legal.entry_div (hq : q.Legal len) {i : Nat} (hi : i < 16) : q.entry i / q.w = q.h - q.y i - 1 := by
  have hx := hq.x_lt hi
  rw [TxdSeq.entry, Nat.mul_comm, Nat.mul_add_div (by omega), Nat.div_eq_of_lt hx, Nat.add_zero]

theorem TxdSeq.Legal.entry_lt_size (hq : q.Legal len) {i : Nat} (hi : i < 16) : q.entry i < q.w * q.h := by
  obtain ⟨hw, hh, -, -⟩ := goodGeometry_iff.mp hq.geometry
  exact TxdSeq.entry_lt hq.superTiles hw (by omega) hi

theorem TxdSeq.Legal.atBlock (hq : q.Legal len) {n : Nat} (hn : n ≤ q.nblk) :
    ({ q with n := n } : TxdSeq).Legal len :=
  { hq with position := hn }

/-- Entries of two blocks of an image that are the same have the same block and position: their column and row
give the super-tile, the block in it and the position in that back. -/
theorem TxdSeq.Legal.entry_inj_blocks (hq : q.Legal len) {n n' i i' : Nat} (hn : n < q.nblk) (hn' : n' < q.nblk)
    (hi : i < 16) (hi' : i' < 16)
    (h : ({ q with n := n } : TxdSeq).entry i = ({ q with n := n' } : TxdSeq).entry i') : n = n' ∧ i = i' := by
  have hleg := hq.atBlock hn.le
  have hleg' := hq.atBlock hn'.le
  have hx : ({ q with n := n } : TxdSeq).x i = ({ q with n := n' } : TxdSeq).x i' := by
    rw [← hleg.entry_mod hi, ← hleg'.entry_mod hi', h]
  have hy : ({ q with n := n } : TxdSeq).y i = ({ q with n := n' } : TxdSeq).y i' := by
    have hrow := hleg.entry_div hi
    rw [h, hleg'.entry_div hi'] at hrow
    have hlt := hleg.y_lt hn i
    have hlt' := hleg'.y_lt hn' i'
    dsimp only at hrow hlt hlt'
    omega
  have hsuper := Nat.div_add_mod (n / 4) q.s
  have hsuper' := Nat.div_add_mod (n' / 4) q.s
  simp only [TxdSeq.x, TxdSeq.y] at hx hy
  have hrow : n / 4 / q.s = n' / 4 / q.s := by omega
  have hcol : n / 4 % q.s = n' / 4 % q.s := by omega
  rw [hrow, hcol, hsuper'] at hsuper
  omega

end

/-- TXD's sequencer before block `n` of the container in SRC. -/
def containerAt (s : State) (n : Nat) : TxdSeq := { containerStart s with n := n }

section
variable {s : State} {n : Nat}

theorem sizeGood_of_checksPass (h : ChecksPass s) : SizeGood s := by
  obtain ⟨-, -, hsize, -⟩ := h
  exact hsize

theorem containerAt_legal (h : ChecksPass s) (hn : n ≤ nblk s) : (containerAt s n).Legal s.srcLen.toNat := by
  obtain ⟨-, -, hsize, hcomplete⟩ := h
  have hstart : (containerStart s).Legal s.srcLen.toNat :=
    TxdSeq.legal_start ((sizeGood_iff s).mp hsize) ((complete_iff hsize).mp hcomplete)
  exact hstart.atBlock (nblk_eq hsize ▸ hn)

theorem containerAt_entry (h : ChecksPass s) (hn : n < nblk s) (i : Nat) :
    (containerAt s n).entry i = place (width s) (height s) n i := by
  rw [(containerAt_legal h hn.le).entry_eq_place, width_eq, height_eq]
  rfl

theorem place_lt (h : ChecksPass s) (hn : n < nblk s) {i : Nat} (hi : i < 16) :
    place (width s) (height s) n i < width s * height s := by
  rw [← containerAt_entry h hn, width_eq, height_eq]
  exact (containerAt_legal h hn.le).entry_lt_size hi

theorem place_inj (h : ChecksPass s) {n' i i' : Nat} (hn : n < nblk s) (hn' : n' < nblk s) (hi : i < 16)
    (hi' : i' < 16) (heq : place (width s) (height s) n i = place (width s) (height s) n' i') :
    n = n' ∧ i = i' := by
  rw [← containerAt_entry h hn, ← containerAt_entry h hn'] at heq
  rw [nblk_eq (sizeGood_of_checksPass h)] at hn hn'
  exact (containerAt_legal h (Nat.zero_le _)).entry_inj_blocks hn hn' hi hi' heq

/-- The blocks of an image have as many positions as the image has entries. -/
theorem nblk_mul_sixteen (h : SizeGood s) : nblk s * 16 = width s * height s := by
  obtain ⟨⟨i, hi⟩, ⟨j, hj⟩, -, -⟩ := h
  have hsize : width s * height s = 16 * (4 * (i * j)) := by rw [hi, hj]; ring
  rw [nblk, hsize, Nat.mul_div_cancel_left _ (by decide), Nat.mul_comm]

/-- Every entry of the image is that of a position: the positions have different entries, and there are as many of
them as entries (R162). -/
theorem exists_place_eq (h : ChecksPass s) {p : Nat} (hp : p < width s * height s) :
    ∃ n < nblk s, ∃ i < 16, place (width s) (height s) n i = p := by
  have hsurj := Finset.surjOn_of_injOn_of_card_le (s := Finset.range (nblk s) ×ˢ Finset.range 16)
    (t := Finset.range (width s * height s)) (fun ni => place (width s) (height s) ni.1 ni.2) ?_ ?_ ?_
  · obtain ⟨⟨n, i⟩, hni, heq⟩ := hsurj (Finset.mem_coe.mpr (Finset.mem_range.mpr hp))
    obtain ⟨hn, hi⟩ := Finset.mem_product.mp hni
    exact ⟨n, Finset.mem_range.mp hn, i, Finset.mem_range.mp hi, heq⟩
  · intro ni hni
    simp only [Finset.coe_product, Finset.coe_range, Set.mem_prod, Set.mem_Iio] at hni ⊢
    exact place_lt h hni.1 hni.2
  · intro ni hni ni' hni' heq
    simp only [Finset.coe_product, Finset.coe_range, Set.mem_prod, Set.mem_Iio] at hni hni'
    exact Prod.ext_iff.mpr (place_inj h hni.1 hni'.1 hni.2 hni'.2 heq)
  · rw [Finset.card_product, Finset.card_range, Finset.card_range, Finset.card_range,
      nblk_mul_sixteen (sizeGood_of_checksPass h)]

/-- TXD's placement is a bijection from the positions of the blocks onto the entries of the image (R162). -/
theorem containerAt_entry_bijOn (h : ChecksPass s) :
    Set.BijOn (fun ni : Nat × Nat => (containerAt s ni.1).entry ni.2)
      { ni | ni.1 < nblk s ∧ ni.2 < 16 } { p | p < width s * height s } := by
  have hplace : Set.EqOn (fun ni : Nat × Nat => place (width s) (height s) ni.1 ni.2)
      (fun ni => (containerAt s ni.1).entry ni.2) { ni | ni.1 < nblk s ∧ ni.2 < 16 } :=
    fun ni hni => (containerAt_entry h hni.1 ni.2).symm
  refine Set.BijOn.congr ⟨?_, ?_, ?_⟩ hplace
  · exact fun ni hni => place_lt h hni.1 hni.2
  · exact fun ni hni ni' hni' heq => Prod.ext_iff.mpr (place_inj h hni.1 hni'.1 hni.2 hni'.2 heq)
  · intro p hp
    obtain ⟨n, hn, i, hi, heq⟩ := exists_place_eq h hp
    exact ⟨(n, i), ⟨hn, hi⟩, heq⟩

end
end
end Sys2Proof.Machine
end

section
namespace Sys2Proof.Machine

/-! ## What the blocks of a container make of the state

The state after the first `k` blocks: its frame, `STATUS` and PIX, each by induction over the blocks. -/

section
open Reference

/-- The state of a `DECTEX` that has passed its checks, after the first `k` blocks. -/
def State.afterBlocks (s : State) (k : Nat) : State := s.txdStarted.txdBlocks config k

theorem State.txdStarted_eq (s : State) :
    s.txdStarted = { s.headerRead with seq := .txd (containerStart s) } := by
  rw [State.txdStarted, latchHeader_dectexStart]

theorem State.afterBlocks_frame (s : State) (k : Nat) :
    s.afterBlocks k = { latched s with
      pix := (s.afterBlocks k).pix
      status := (s.afterBlocks k).status
      seq := .txd (containerAt s k)
      draws := s.draws + 1 + k } := by
  have hat : ({ containerStart s with n := (containerStart s).n + k } : TxdSeq) = containerAt s k :=
    congrArg (fun n => ({ containerStart s with n := n } : TxdSeq)) (Nat.zero_add k)
  obtain ⟨pix, status, heq, -⟩ := State.txdBlocks_frame config k (s := s.txdStarted) (q := containerStart s) rfl
  rw [hat] at heq
  rw [State.afterBlocks, heq, s.txdStarted_eq]
  rfl

theorem State.afterBlocks_seq (s : State) (k : Nat) : (s.afterBlocks k).seq = .txd (containerAt s k) := by
  rw [s.afterBlocks_frame]

theorem State.afterBlocks_src (s : State) (k : Nat) : (s.afterBlocks k).src = s.src := by
  rw [s.afterBlocks_frame, latched]

theorem State.afterBlocks_srcLen (s : State) (k : Nat) : (s.afterBlocks k).srcLen = s.srcLen := by
  rw [s.afterBlocks_frame, latched]

theorem State.afterBlocks_memRead32 (s : State) (k off : Nat) :
    (s.afterBlocks k).memRead32 off = (atBlock s k).memRead32 off := by
  refine congrArg (BitVec.ofNat 32) (State.memRead_congr fun a _ _ => ?_)
  rw [s.afterBlocks_frame]
  rfl

theorem State.afterBlocks_succ (s : State) (k : Nat) : s.afterBlocks (k + 1) = (s.afterBlocks k).txdBlock config :=
  s.txdStarted.txdBlocks_succ config k

section
variable {s : State} {k : Nat}

theorem containerAt_pixOffset (h : ChecksPass s) (hk : k ≤ nblk s) :
    (containerAt s k).pixOffset config = colourBytes s k := by
  rw [(containerAt_legal h hk).pixOffset_eq, colourBytes, pbase_eq, bpb_eq]
  rfl

theorem containerAt_infoOffset (h : ChecksPass s) (hk : k ≤ nblk s) :
    (containerAt s k).infoOffset config = colourBytes s k + 4 := by
  rw [← containerAt_pixOffset h hk]
  rfl

/-- A pass of TXD's loop is the block-info word it reads, run as an instruction (R158). -/
theorem State.txdBlock_eq_decodeBlockWord {q : TxdSeq} (hs : s.seq = .txd q) (hn : q.n < q.nblk) :
    s.txdBlock config = decodeBlockWord (blockOfWord (s.memRead32 (q.infoOffset config))) s := by
  simp only [State.txdBlock, decodeBlockWord, State.txdReading, hs, hn, if_true]

/-- What block `k` adds (R129, R161, R163, R168). -/
theorem State.afterBlocks_block (h : ChecksPass s) (hk : k < nblk s) :
    (s.afterBlocks (k + 1)).status =
        ((s.afterBlocks k).status ||| if outOfRange (infoWord s k) then 0x10#32 else 0x00#32) ∧
      (∀ i < 16, (s.afterBlocks (k + 1)).pix.read (place (width s) (height s) k i) =
        some (rgbaWord (infoWord s k) (pixWord s k) i)) ∧
      ∀ p, (∀ i < 16, p ≠ place (width s) (height s) k i) →
        (s.afterBlocks (k + 1)).pix.read p = (s.afterBlocks k).pix.read p := by
  have hseq := s.afterBlocks_seq k
  have hlegal := containerAt_legal h hk.le
  have hleft : (containerAt s k).n < (containerAt s k).nblk := nblk_eq (sizeGood_of_checksPass h) ▸ hk
  have hinfo : (s.afterBlocks k).memRead32 ((containerAt s k).infoOffset config) = infoWord s k := by
    rw [s.afterBlocks_memRead32, containerAt_infoOffset h hk.le, infoWord]
  have hpix : (s.afterBlocks k).memRead32 ((containerAt s k).pixOffset config) = pixWord s k := by
    rw [s.afterBlocks_memRead32, containerAt_pixOffset h hk.le, pixWord]
  have hblock := State.txdBlock_eq_decodeBlockWord hseq hleft
  rw [hinfo, ← s.afterBlocks_succ] at hblock
  obtain ⟨hstatus, hwritten, hkept⟩ :=
    decodeBlockWord_block hblock.symm hseq (s.afterBlocks_srcLen k ▸ hlegal) hleft
  rw [← hlegal.pixOffset_eq, hpix] at hwritten
  simp only [← hlegal.entry_eq_place, containerAt_entry h hk] at hwritten hkept
  exact ⟨congrArg State.status hstatus, hwritten, hkept⟩

/-- After `k` blocks `DIFFOOR` is set if a sum of one of them was out of range (R168). -/
theorem State.afterBlocks_status (h : ChecksPass s) (hk : k ≤ nblk s) :
    (s.afterBlocks k).status = ((s.status &&& ~~~1#32) |||
      if (List.range k).any fun n => outOfRange (infoWord s n) then 0x10#32 else 0x00#32) := by
  induction k with
  | zero => exact BitVec.or_zero.symm
  | succ k ih =>
    obtain ⟨hstatus, -, -⟩ := State.afterBlocks_block h hk
    rw [hstatus, ih (by omega), List.range_succ, List.any_append, BitVec.or_assoc]
    congr 1
    cases (List.range k).any fun n => outOfRange (infoWord s n) <;> cases hoor : outOfRange (infoWord s k) <;>
      simp [hoor]

/-- After `k` blocks the pixels of each of them stand at their entries, since no later block has an entry of
theirs (R162). -/
theorem State.afterBlocks_written (h : ChecksPass s) (hk : k ≤ nblk s) {n i : Nat} (hn : n < k) (hi : i < 16) :
    (s.afterBlocks k).pix.read (place (width s) (height s) n i) =
      some (rgbaWord (infoWord s n) (pixWord s n) i) := by
  induction k with
  | zero => exact absurd hn (Nat.not_lt_zero n)
  | succ k ih =>
    obtain ⟨-, hwritten, hkept⟩ := State.afterBlocks_block h hk
    by_cases hlast : n = k
    · exact hlast ▸ hwritten i hi
    · rw [hkept _ fun i' hi' heq => hlast (place_inj h (by omega) hk hi hi' heq).1]
      exact ih (by omega) (by omega)

/-- No block writes an entry outside the image (R162). -/
theorem State.afterBlocks_kept (h : ChecksPass s) (hk : k ≤ nblk s) {p : Nat} (hp : width s * height s ≤ p) :
    (s.afterBlocks k).pix.read p = s.pix.read p := by
  induction k with
  | zero => rfl
  | succ k ih =>
    obtain ⟨-, -, hkept⟩ := State.afterBlocks_block h hk
    rw [hkept p fun i hi heq => absurd (place_lt h hk hi) (by omega), ih (by omega)]

theorem exec_dectex_checksPass (h : ChecksPass s) : exec .dectex s = .next (s.afterBlocks (nblk s)).txdEnd := by
  rw [nblk_eq (sizeGood_of_checksPass h)]
  exact congrArg Host.Outcome.next (dectexWith_of_checksPass h)

theorem State.afterBlocks_txdEnd (s : State) (k : Nat) :
    (s.afterBlocks k).txdEnd = { latched s with
      texBlocks := BitVec.ofNat 32 k
      status := (s.afterBlocks k).status ||| 0x01#32
      pix := (s.afterBlocks k).pix
      draws := s.draws + 1 + k } := by
  rw [State.txdEnd, s.afterBlocks_seq]
  dsimp only
  rw [s.afterBlocks_frame]
  rfl

/-- The whole of what a `DECTEX` that passes its checks leaves (R168, R169). -/
theorem exec_dectex_image (h : ChecksPass s) : exec .dectex s = .next { latched s with
    texBlocks := BitVec.ofNat 32 (nblk s)
    status := s.status |||
      if (List.range (nblk s)).any fun n => outOfRange (infoWord s n) then 0x11#32 else 0x01#32
    pix := (s.afterBlocks (nblk s)).pix
    draws := s.draws + 1 + nblk s } := by
  rw [exec_dectex_checksPass h, s.afterBlocks_txdEnd, State.afterBlocks_status h le_rfl, status_decblk]

end

/-- Settles O29: the image after the last block. -/
theorem dectexWritesTheImage : Obligations.DectexWritesTheImage := fun _ h =>
  ⟨_, exec_dectex_image h, fun _ hn _ hi => State.afterBlocks_written h le_rfl hn hi,
    fun _ hp => State.afterBlocks_kept h le_rfl hp⟩

/-- Settles O30: the placement is a bijection, so that every entry of the image is that of a position written. -/
theorem everyPixelIsPlacedExactlyOnce : Obligations.EveryPixelIsPlacedExactlyOnce := by
  intro s h
  refine ⟨containerAt_entry_bijOn h, _, exec_dectex_image h, fun p hp => ?_,
    fun p hp => State.afterBlocks_kept h le_rfl hp⟩
  obtain ⟨n, hn, i, hi, rfl⟩ := exists_place_eq h hp
  exact Option.ne_none_iff_exists'.mpr ⟨_, State.afterBlocks_written h le_rfl hn hi⟩

/-- Settles O28: the end state, with `DIFFOOR` by whether some block was out of range. -/
theorem dectexEndState : Obligations.DectexEndState := by
  refine fun s h => ⟨_, exec_dectex_image h, rfl, fun ⟨n, hn, hoor⟩ => ?_, fun hnone => ?_⟩
  · have hany : ((List.range (nblk s)).any fun n => outOfRange (infoWord s n)) = true :=
      List.any_eq_true.mpr ⟨n, List.mem_range.mpr hn, hoor⟩
    simp only [hany, if_true]
  · have hany : ((List.range (nblk s)).any fun n => outOfRange (infoWord s n)) = false :=
      List.any_eq_false.mpr fun n hn => by simp [hnone n (List.mem_range.mp hn)]
    simp only [hany, Bool.false_eq_true, if_false]

/-- Settles O27: the outcomes, in the order of the checks. -/
theorem dectexReportsTheFirstFailingCheck : Obligations.DectexReportsTheFirstFailingCheck := by
  intro s
  obtain ⟨t, ht⟩ : ∃ t, exec .dectex s = .next t := ⟨_, rfl⟩
  refine ⟨t, ht, fun hheader => ?_, fun hheader => ⟨fun htype => ?_, fun htype =>
    ⟨fun hsize => ?_, fun hsize => ⟨fun hlen => ?_, fun hlen => ?_⟩⟩⟩⟩
  · cases (exec_dectex_shortHeader hheader).symm.trans ht
    exact ⟨rfl, hasFlag_done_faulted s 3#32⟩
  · cases (exec_dectex_unknownType hheader htype).symm.trans ht
    exact ⟨rfl, hasFlag_done_faulted _ _⟩
  · cases (exec_dectex_badSize hheader htype hsize).symm.trans ht
    exact ⟨rfl, hasFlag_done_faulted _ _⟩
  · cases (exec_dectex_shortPayload hheader htype hsize hlen).symm.trans ht
    exact ⟨rfl, hasFlag_done_faulted (latched s) 3#32⟩
  · cases (exec_dectex_image ⟨hheader, htype, hsize, hlen⟩).symm.trans ht
    refine ⟨rfl, ?_, ?_⟩ <;>
      cases (List.range (nblk s)).any fun n => outOfRange (infoWord s n) <;> simp [State.hasFlag, StatusFlag.bit]

/-- A good size is below 8192, by its 13 bits, and a multiple of 8 (R34, R154). -/
theorem size_le {s : State} (h : SizeGood s) : width s ≤ 8184 ∧ height s ≤ 8184 := by
  obtain ⟨hw, hh, -, -⟩ := h
  have hw13 : width s < 2 ^ 13 := field_lt _ 6 13
  have hh13 : height s < 2 ^ 13 := field_lt _ 19 13
  omega

/-- Settles O25: check 3 fails on a bad size; with a good one the other checks and the image put no 5. -/
theorem dectexBadGeometry : Obligations.DectexBadGeometry := by
  refine fun s => ⟨exec_dectex_badSize, fun hsize => ?_⟩
  obtain ⟨hwidth, hheight⟩ := size_le hsize
  obtain ⟨t, ht, hshort, hrest⟩ := dectexReportsTheFirstFailingCheck s
  refine ⟨hwidth, hheight, t, ht, fun h5 => ?_⟩
  rcases Nat.lt_or_ge s.srcLen.toNat 16 with hheader | hheader
  · exact absurd ((hshort hheader).1.symm.trans h5) (by decide)
  obtain ⟨hunknown, hknown⟩ := hrest hheader
  by_cases htype : TypeKnown s
  · obtain ⟨hincomplete, hcomplete⟩ := (hknown htype).2 hsize
    by_cases hlen : Complete s
    · exact (hcomplete hlen).1.symm.trans h5
    · exact absurd ((hincomplete hlen).1.symm.trans h5) (by decide)
  · exact absurd ((hunknown htype).1.symm.trans h5) (by decide)

end
end Sys2Proof.Machine
end

section
namespace Sys2Proof.Machine

/-! ## What `DECTEX` reads of SRC -/

section
open Reference

/-- `s` with the SRC contents and `SRC_LEN` of `o`, and with those header latches of `o` that `DECTEX` does not use
after its checks (R152). -/
def State.withContainerOf (s o : State) : State :=
  { s with
    src := o.src
    srcLen := o.srcLen
    texMagic := o.texMagic
    texFlags := o.texFlags
    texFmt := o.texFmt }

/-- SRC and `m` hold the same geometry word, pixel-type byte and colour bytes of the blocks (R152, R156, R157). -/
def ContainerIs (s : State) (m : Memory Byte) : Prop :=
  ∀ a, (8 ≤ a ∧ a < 12) ∨ a = 13 ∨ (∃ n < nblk s, colourBytes s n ≤ a ∧ a < colourBytes s n + 8) →
    m.read a = s.src.read a

theorem State.memRead32_congr {s s' : State} {off : Nat} (hd : s.draws = s'.draws)
    (h : ∀ a, off ≤ a → a < off + 4 → s.src.read a = s'.src.read a) : s.memRead32 off = s'.memRead32 off := by
  refine congrArg (BitVec.ofNat 32) (State.memRead_congr fun a hlow hhigh => ?_)
  simp only [State.srcByte, hd, h a hlow hhigh]

/-- The second byte of a 32-bit read (R62). -/
theorem State.memRead32_byte1 (s : State) (off : Nat) :
    (s.memRead32 off).extractLsb' 8 8 = s.srcByte (off + 1) := by
  have hsum := (memReadIsLittleEndian s off).1
  have h0 := (s.srcByte off).isLt
  have h1 := (s.srcByte (off + 1)).isLt
  refine BitVec.eq_of_toNat_eq ?_
  rw [BitVec.extractLsb'_toNat, Nat.shiftRight_eq_div_pow, hsum]
  omega

theorem pixType_eq_srcByte (s : State) : pixType s = s.srcByte 13 := s.memRead32_byte1 12

section
variable {s : State} {m : Memory Byte} (len : Word)

/-! The header words that are used say the same of both containers. -/

theorem memRead32_geometry (h : ContainerIs s m) : (s.withStream m len).memRead32 8 = s.memRead32 8 :=
  State.memRead32_congr rfl fun a hlow hhigh => h a (.inl ⟨hlow, hhigh⟩)

theorem pixType_withStream (h : ContainerIs s m) : pixType (s.withStream m len) = pixType s := by
  rw [pixType_eq_srcByte, pixType_eq_srcByte, State.srcByte, State.srcByte]
  exact congrArg (fun b => b.getD (Config.freeSrc s.draws 13)) (h 13 (.inr (.inl rfl)))

theorem containerStart_withStream (h : ContainerIs s m) : containerStart (s.withStream m len) = containerStart s := by
  simp only [containerStart, TxdSeq.start, ← pixType_eq, memRead32_geometry len h, pixType_withStream len h]

theorem nblk_withStream (h : ContainerIs s m) : nblk (s.withStream m len) = nblk s := by
  simp only [nblk, width_eq, height_eq, memRead32_geometry len h]

theorem checksPass_withStream (hs : ChecksPass s) (hlen : pbase s + nblk s * bpb s ≤ len.toNat)
    (h : ContainerIs s m) : ChecksPass (s.withStream m len) := by
  obtain ⟨-, htype, hsize, -⟩ := hs
  have hpbase : pbase (s.withStream m len) = pbase s := by rw [pbase_eq, pbase_eq, containerStart_withStream len h]
  have hbpb : bpb (s.withStream m len) = bpb s := by rw [bpb_eq, bpb_eq, containerStart_withStream len h]
  refine ⟨?_, ?_, ?_, ?_⟩
  · have hheader : 16 ≤ pbase s := Nat.le_add_right 16 _
    exact (hheader.trans (Nat.le_add_right _ _)).trans hlen
  · rwa [TypeKnown, pixType_withStream len h]
  · rwa [sizeGood_iff, containerStart_withStream len h, ← sizeGood_iff]
  · rwa [Complete, hpbase, hbpb, nblk_withStream len h]

end

/-! The blocks make the same of both containers. -/

/-- The two words of a block are its 8 colour bytes (R84, R157). -/
theorem State.txdBlock_withContainerOf {s o : State} {q : TxdSeq} (hs : s.seq = .txd q)
    (h : ∀ a, q.pixOffset config ≤ a → a < q.pixOffset config + 8 → o.src.read a = s.src.read a) :
    (s.withContainerOf o).txdBlock config = (s.txdBlock config).withContainerOf o := by
  have hseq : (s.withContainerOf o).seq = .txd q := hs
  have hpix : (s.withContainerOf o).memRead32 (q.pixOffset config) = s.memRead32 (q.pixOffset config) :=
    State.memRead32_congr rfl fun a hlow hhigh => h a hlow (by omega)
  have hinfo : (s.withContainerOf o).memRead32 (q.infoOffset config) = s.memRead32 (q.infoOffset config) := by
    have hoff : q.infoOffset config = q.pixOffset config + 4 := rfl
    exact State.memRead32_congr rfl fun a hlow hhigh => h a (by omega) (by omega)
  simp only [State.txdBlock, hs, hseq, State.decodeToPix_eq, hpix, hinfo]
  simp only [State.withContainerOf]

theorem State.txdEnd_withContainerOf (s o : State) : (s.withContainerOf o).txdEnd = s.txdEnd.withContainerOf o := by
  have hseq : (s.withContainerOf o).seq = s.seq := rfl
  unfold State.txdEnd
  rw [hseq]
  split <;> rfl

theorem State.txdBlocks_withContainerOf {s o : State} (hs : ChecksPass s) (h : ContainerIs s o.src) {k : Nat}
    (hk : k ≤ nblk s) :
    (s.txdStarted.withContainerOf o).txdBlocks config k = (s.afterBlocks k).withContainerOf o := by
  induction k with
  | zero => rfl
  | succ k ih =>
    rw [State.txdBlocks_succ, ih (by omega), s.afterBlocks_succ]
    refine State.txdBlock_withContainerOf (s.afterBlocks_seq k) fun a hlow hhigh => ?_
    rw [containerAt_pixOffset hs (by omega)] at hlow hhigh
    rw [s.afterBlocks_src]
    exact h a (.inr (.inr ⟨k, hk, hlow, hhigh⟩))

theorem State.txdStarted_withStream {s : State} {m : Memory Byte} (len : Word) (h : ContainerIs s m) :
    (s.withStream m len).txdStarted = s.txdStarted.withContainerOf (latched (s.withStream m len)) := by
  have hgeom := memRead32_geometry len h
  rw [State.txdStarted_eq, State.txdStarted_eq, containerStart_withStream len h, State.headerRead, State.headerRead,
    latched, latched, hgeom]
  rfl

/-- Settles O31: both containers pass the checks, and then every word is read from colour bytes they share. -/
theorem dectexUsesNothingElseOfSrc : Obligations.DectexUsesNothingElseOfSrc := by
  intro s t m len hs hlen hm ht
  cases (exec_dectex_checksPass hs).symm.trans ht
  refine (exec_dectex_checksPass (checksPass_withStream len hs hlen hm)).trans (congrArg Host.Outcome.next ?_)
  rw [nblk_withStream len hm, State.afterBlocks, State.txdStarted_withStream len hm,
    State.txdBlocks_withContainerOf (o := latched (s.withStream m len)) hs hm le_rfl, State.txdEnd_withContainerOf]
  rfl

end
end Sys2Proof.Machine
end

section
namespace Sys2Proof.Machine

/-! ## The elements of a stream as steps -/

/-- Settles O8: a step runs the decoding, and a value that decodes to no instruction is a vertex index. -/
theorem streamElementRunsAsDecoded : Obligations.StreamElementRunsAsDecoded := by
  refine ⟨fun s q hs hn => step_of_block hs hn, fun s q hs hcur => ⟨fun i hi => step_of_stream_value hs hcur hi,
    fun r hr => ?_⟩⟩
  have hvalue : decodeIndex (s.streamValue q.cur) = .error r := hr
  rw [step_eq_outcome]
  simp only [nextWork, hs, hcur, if_true, hvalue, Work.outcome]
  rfl

end Sys2Proof.Machine
end

section
namespace Sys2Proof.Machine

/-! ## One element of a stream: a triangle, a priming or the end -/

section
open Reference

/-! ### One triangle -/

/-- The vertices of a triangle as numbers. -/
def vertexNumbers (t : Half × Half × Half) : Nat × Nat × Nat := (t.1.toNat, t.2.1.toNat, t.2.2.toNat)

/-- The winding of R186 under the parameters of the engine. -/
theorem vertexNumbers_windTriangle (reverse : Bool) (f1 f2 f3 : Half) :
    vertexNumbers (windTriangle config reverse f1 f2 f3) =
      if reverse then (f1.toNat, f2.toNat, f3.toNat) else (f1.toNat, f3.toNat, f2.toNat) := by
  cases reverse <;> rfl

theorem rebase_eq_rebased (base : Word) (v : Half) : rebase base v = rebased base v.toNat := by
  rw [rebase, rebased, Int.sub_eq_add_neg, BitVec.ofInt_add, BitVec.ofInt_neg, BitVec.ofInt_natCast,
    BitVec.ofInt_natCast, BitVec.ofNat_toNat, BitVec.ofNat_toNat, BitVec.setWidth_eq, BitVec.sub_eq_add_neg]

theorem triBelowBase_eq_someBelow (base : Word) (t : Half × Half × Half) :
    triBelowBase base t = someBelow base [vertexNumbers t] := by
  simp only [triBelowBase, belowBase, someBelow, vertexNumbers, List.any_cons, List.any_nil, Bool.or_false]

/-- Entry `n` of TRI holds a triangle, rebased (R187). -/
def HoldsTriangle (tri : Memory Word) (base : Word) (n : Nat) (v : Nat × Nat × Nat) : Prop :=
  tri.read (3 * n) = some (rebased base v.1) ∧ tri.read (3 * n + 1) = some (rebased base v.2.1) ∧
    tri.read (3 * n + 2) = some (rebased base v.2.2)

theorem holdsTriangle_writeTri (tri : Memory Word) (base : Word) (n : Nat) (t : Half × Half × Half) :
    HoldsTriangle (tri.writeTri n (rebaseTri base t)) base n (vertexNumbers t) := by
  simp only [HoldsTriangle, vertexNumbers, ← rebase_eq_rebased]
  exact tri.read_writeTri_self n (rebaseTri base t)

theorem HoldsTriangle.congr {tri tri' : Memory Word} {base : Word} {n : Nat} {v : Nat × Nat × Nat}
    (hv : HoldsTriangle tri base n v) (h : ∀ k, k / 3 = n → tri'.read k = tri.read k) :
    HoldsTriangle tri' base n v := by
  rwa [HoldsTriangle, h _ (by omega), h _ (by omega), h _ (by omega)]

/-- An entry that holds a triangle reads as it, whatever the draw. -/
theorem triEntry_of_holdsTriangle {s : State} {base : Word} {n : Nat} {v : Nat × Nat × Nat}
    (h : HoldsTriangle s.tri base n v) :
    s.triEntry n = ⟨rebased base v.1, rebased base v.2.1, rebased base v.2.2⟩ := by
  obtain ⟨ha, hb, hc⟩ := h
  simp only [State.triEntry, State.triWord, triKey, TriLane.index, Nat.add_zero, ha, hb, hc, Option.getD_some]

/-! ### One element of the stream -/

theorem sentinel_iff (v : Half) : v = sentinel ↔ v.toNat = 0xFFFF := BitVec.toNat_inj.symm

theorem status_setIf_idxneg (status : Word) (b : Bool) :
    (if b then status ||| BitVec.twoPow 32 StatusFlag.idxneg.bit else status) =
      status ||| if b then 0x20#32 else 0x00#32 := by
  cases b
  · exact (BitVec.or_zero).symm
  · rfl

theorem State.sidEmit_seq (cfg : Config) (s : State) (q : SidSeq) (f3 : Half) :
    (s.sidEmit cfg q f3).seq = .sid ⟨q.f2, f3, !q.reverse, q.cur + 1, q.nt + 1⟩ := by
  rw [State.sidEmit_eq]

theorem State.sidEmit_idxCount (cfg : Config) (s : State) (q : SidSeq) (f3 : Half) :
    (s.sidEmit cfg q f3).idxCount = s.idxCount := by
  rw [State.sidEmit_eq]

theorem State.sidEmit_src (cfg : Config) (s : State) (q : SidSeq) (f3 : Half) : (s.sidEmit cfg q f3).src = s.src := by
  rw [State.sidEmit_eq]

section
variable {s : State} {q : SidSeq}

/-- With fewer than two values left, priming ends the command (R190). -/
theorem State.sidPrime_short {cur : Nat} (h : s.idxCount.toNat - cur < 2) (nt : Nat) :
    s.sidPrime cur nt = { s with
      triCount := BitVec.ofNat 32 nt
      seq := .idle
      status := s.status ||| 0x41#32
      draws := s.draws + 1 } := by
  have hbits : s.status ||| BitVec.twoPow 32 StatusFlag.shortprime.bit ||| BitVec.twoPow 32 StatusFlag.done.bit =
      s.status ||| 0x41#32 := BitVec.or_assoc _ _ _
  rw [State.sidPrime, if_pos h, ← hbits]
  rfl

/-- With two values left, priming takes them into the window (R183, R184). -/
theorem State.sidPrime_window {cur : Nat} (h : cur + 2 ≤ s.idxCount.toNat) (nt : Nat) :
    s.sidPrime cur nt = { s with
      seq := .sid ⟨s.streamValue cur, s.streamValue (cur + 1), true, cur + 2, nt⟩
      draws := s.draws + 1 } := by
  rw [State.sidPrime, if_neg (by omega)]
  rfl

theorem exec_idxRestart (hs : s.seq = .sid q) (hcur : q.cur < s.idxCount.toNat) :
    exec .idxRestart s = .next (s.sidRestart q) := by
  simp only [exec, execIdxRestart, State.sidReading, hs, hcur, if_true]

/-- A live strip sequencer's step is one pass of its loop, or its end (R194). -/
theorem step_sidElement (hs : s.seq = .sid q) : step s = .next (s.sidElement config) := by
  obtain ⟨hcur, hv, heq⟩ | ⟨hcur, hv, heq⟩ | ⟨hcur, heq⟩ := State.sidElement_cases config hs
  · rw [heq, ← exec_idxRestart hs hcur]
    exact step_of_stream_value hs hcur (if_pos hv)
  · rw [heq]
    exact (streamElementRunsAsDecoded.2 s q hs hcur).2 _ (if_neg hv)
  · rw [heq]
    simp only [step, nextWork, hs, Nat.not_lt.mpr hcur, if_false]

end

/-- Settles O38: a restart is a priming at the value after the sentinel. -/
theorem restartPrimesANewWindow : Obligations.RestartPrimesANewWindow := by
  refine fun s => ⟨fun q hs hleft => ?_, fun q hs hcur hshort => ?_, fun hnone => ?_⟩
  · rw [exec_idxRestart hs (by omega), State.sidRestart, State.sidPrime_window (by omega)]
    rfl
  · rw [exec_idxRestart hs hcur, State.sidRestart, State.sidPrime_short (by omega)]
  · have hreading : s.sidReading = none := Option.eq_none_iff_forall_ne_some.mpr fun q hq =>
      have ⟨hs, hcur⟩ := State.sidReading_eq_some hq
      Nat.not_lt.mpr (hnone q hs) hcur
    simp only [exec, execIdxRestart, hreading]

/-- Settles O37: the step is one pass of SID's loop, and the pass an emission. -/
theorem stripValueEmitsOneTriangle : Obligations.StripValueEmitsOneTriangle := by
  intro s q hs hcur hv f3 v
  have hvertices : vertexNumbers (windTriangle config q.reverse q.f1 q.f2 f3) = v := vertexNumbers_windTriangle ..
  have hstep : step s = .next (s.sidEmit config q f3) := (streamElementRunsAsDecoded.2 s q hs hcur).2 _ (if_neg hv)
  refine ⟨_, hstep, ?_, triEntry_of_holdsTriangle ?_, fun k hk => ?_⟩ <;> rw [State.sidEmit_eq]
  · rw [triBelowBase_eq_someBelow, status_setIf_idxneg, hvertices]
  · exact hvertices ▸ holdsTriangle_writeTri ..
  · exact Memory.read_writeTri_ne _ _ hk

end
end Sys2Proof.Machine
end

section
namespace Sys2Proof.Machine

/-! ## The small steps of `DECSTRIP`, and the command that decodes no window -/

section
open Reference

theorem State.sidElement_seq_ne_txd (cfg : Config) {s : State} (h : ∀ q, s.seq ≠ .txd q) (q : TxdSeq) :
    (s.sidElement cfg).seq ≠ .txd q := by
  cases hs : s.seq with
  | idle => simp [State.sidElement_idle cfg hs, hs]
  | txd q' => exact absurd hs (h q')
  | sid p =>
    obtain ⟨-, -, heq⟩ | ⟨-, -, heq⟩ | ⟨-, heq⟩ := State.sidElement_cases cfg hs
    · rw [heq]
      obtain ⟨-, hp⟩ | ⟨-, hp⟩ := s.sidPrime_cases (p.cur + 1) p.nt <;> rw [State.sidRestart, hp] <;> nofun
    · rw [heq, State.sidEmit_seq]
      nofun
    · rw [heq]
      nofun

/-- The passes of SID's loop are steps of the machine; passes after its end need none. -/
theorem run_sidElements (k : Nat) {s : State} (h : ∀ q, s.seq ≠ .txd q) :
    ∃ j ≤ k, core.run j s = .next (s.sidElements config k) := by
  induction k generalizing s with
  | zero => exact ⟨0, le_rfl, rfl⟩
  | succ k ih =>
    cases hs : s.seq with
    | idle => exact ⟨0, Nat.zero_le _, by rw [State.sidElements_idle config _ hs]; rfl⟩
    | txd q => exact absurd hs (h q)
    | sid q =>
      obtain ⟨j, hj, hrun⟩ := ih (State.sidElement_seq_ne_txd config h)
      have hstep : core.step s = .next (s.sidElement config) := step_sidElement hs
      refine ⟨j + 1, Nat.succ_le_succ hj, ?_⟩
      simp only [Host.Core.run, hstep]
      exact hrun

/-- A `DECSTRIP` that passes its check primes at the first value and then runs the passes (R180, R182). -/
theorem exec_decstrip {s : State} (h : 2 * s.idxCount.toNat ≤ s.srcLen.toNat) :
    exec .decstrip s = .next (((stripStarted s).sidPrime 0 0).sidElements config s.idxCount.toNat) := by
  simp only [exec, execDecstrip, decstripWith, if_neg (Nat.not_lt.mpr h)]
  rfl

/-- Settles O39: from the primed window the steps are the passes of the atomic command. -/
theorem stripStepsReachTheAtomicResult : Obligations.StripStepsReachTheAtomicResult := by
  intro s hlen hcount
  have hprimed : (stripStarted s).sidPrime 0 0 = { stripStarted s with
      seq := .sid ⟨s.memRead16 0, s.memRead16 2, true, 2, 0⟩
      draws := s.draws + 1 } := State.sidPrime_window (s := stripStarted s) hcount 0
  have hexec := exec_decstrip hlen
  obtain ⟨k, hk, hrun⟩ := run_sidElements s.idxCount.toNat (s := (stripStarted s).sidPrime 0 0)
    (by rw [hprimed]; nofun)
  exact ⟨_, k, hk, hexec, (exec_writesOnly hexec).pending, hprimed ▸ hrun⟩

/-- Settles O32: the check comes before the first value is read. -/
theorem decstripBeyondSrcLenIsTruncated : Obligations.DecstripBeyondSrcLenIsTruncated := by
  intro s h
  have hclear : (stripStarted s).status &&& ~~~0x01#32 = (stripStarted s).status := by
    rw [stripStarted, BitVec.and_assoc, BitVec.and_self]
  simp only [exec, execDecstrip, decstripWith, if_pos h, faulted, hclear]
  rfl

theorem clearDone_or {x : Word} (h : x = 0x01#32 ||| x) (status : Word) :
    (status &&& ~~~0x01#32) ||| x = status ||| x := by
  rw [h, ← BitVec.or_assoc, clear_or_self, BitVec.or_assoc]

/-- Settles O33: the first priming ends the command. -/
theorem decstripTooShortToPrime : Obligations.DecstripTooShortToPrime := by
  intro s hlen hcount
  rw [exec_decstrip hlen, State.sidPrime_short (s := stripStarted s) hcount, State.sidElements_idle config _ rfl]
  simp only [stripStarted, clearDone_or (x := 0x41#32) (by decide)]
  rfl

end
end Sys2Proof.Machine
end

section
namespace Sys2Proof.Machine

/-! ## What `DECSTRIP` makes of a stream

The list of the stream's values, what decoding it must leave, and that the passes of SID's loop do, by induction. -/

section
open Reference

/-! ### The values of a stream -/

/-- Where SRC holds both bytes of stream value `k`, the value is `v` (R62, R181). -/
def Memory.HoldsValue (m : Memory Byte) (k : Nat) (v : Half) : Prop :=
  ∀ b0 b1 : Byte, m.read (2 * k) = some b0 → m.read (2 * k + 1) = some b1 → v.toNat = b0.toNat + 256 * b1.toNat

/-- The list is that of the stream values from `k` on. -/
def Memory.HoldsStream (m : Memory Byte) (k : Nat) (vals : List Half) : Prop :=
  ∀ i, (h : i < vals.length) → m.HoldsValue (k + i) vals[i]

/-- The next value SID reads is the one SRC holds, wherever it holds one. -/
theorem State.holdsValue_streamValue (s : State) (k : Nat) : s.src.HoldsValue k (s.streamValue k) := by
  intro b0 b1 h0 h1
  obtain ⟨-, hvalue, -⟩ := memReadIsLittleEndian s (2 * k)
  rw [State.streamValue, hvalue, State.srcByte_of_read h0, State.srcByte_of_read h1]

theorem Memory.HoldsStream.cons {m : Memory Byte} {k : Nat} {v : Half} {vals : List Half} (hv : m.HoldsValue k v)
    (h : m.HoldsStream (k + 1) vals) : m.HoldsStream k (v :: vals) := by
  intro i hi
  cases i with
  | zero => exact hv
  | succ i =>
    exact Nat.add_right_comm k 1 i ▸ h i (Nat.lt_of_succ_lt_succ hi)

/-- Values that SID never reads have their list as well. -/
theorem State.exists_holdsStream (s : State) (k n : Nat) :
    ∃ vals : List Half, vals.length = n ∧ s.src.HoldsStream k vals := by
  induction n generalizing k with
  | zero => exact ⟨[], rfl, nofun⟩
  | succ n ih =>
    obtain ⟨vals, hlength, hvals⟩ := ih (k + 1)
    exact ⟨s.streamValue k :: vals, congrArg Nat.succ hlength, hvals.cons (s.holdsValue_streamValue k)⟩

/-! ### What a strip leaves -/

/-- `STATUS` at the end of a strip (R188, R190, R193). -/
def stripStatus (status : Word) (below short : Bool) : Word :=
  status ||| 0x01#32 ||| (if below then 0x20#32 else 0x00#32) ||| (if short then 0x40#32 else 0x00#32)

theorem stripStatus_idxneg (status : Word) (b below short : Bool) :
    stripStatus (status ||| if b then 0x20#32 else 0x00#32) below short = stripStatus status (b || below) short := by
  have hbits : ((if b then 0x20#32 else 0x00#32) ||| (0x01#32 ||| if below then 0x20#32 else 0x00#32)) =
      0x01#32 ||| if b || below then 0x20#32 else 0x00#32 := by
    cases b <;> cases below <;> rfl
  rw [stripStatus, stripStatus]
  congr 1
  rw [BitVec.or_assoc, BitVec.or_assoc, hbits, BitVec.or_assoc]

/-- From `s` to `t` a command has ended that had `nt` triangles: it has written the triangles of `out` from entry
`nt` on, and set the flags that they and `out`'s end demand; nothing else has changed but the draws. -/
structure StripEnds (s t : State) (nt : Nat) (out : List (Nat × Nat × Nat) × Bool) : Prop where
  frame : t = { s with
    triCount := BitVec.ofNat 32 (nt + out.1.length)
    tri := t.tri
    seq := .idle
    status := stripStatus s.status (someBelow s.baseIndex out.1) out.2
    draws := t.draws }
  written : ∀ j, (h : j < out.1.length) → HoldsTriangle t.tri s.baseIndex (nt + j) out.1[j]
  kept : ∀ k, (k < 3 * nt ∨ 3 * (nt + out.1.length) ≤ k) → t.tri.read k = s.tri.read k

/-- From `s`, whose next value to read is `cur`, to `t` a command has ended that has decoded the rest of the stream
by `decode`. -/
def StripDecodes (s t : State) (cur nt : Nat) (decode : List Nat → List (Nat × Nat × Nat) × Bool) : Prop :=
  ∃ vals : List Half, vals.length = s.idxCount.toNat - cur ∧ s.src.HoldsStream cur vals ∧
    StripEnds s t nt (decode (vals.map BitVec.toNat))

/-- The sentinel primes as the start of a stream does (R183, R184). -/
theorem stripFrom_sentinel (f1 f2 : Nat) (reverse : Bool) (vals : List Nat) :
    stripFrom f1 f2 reverse (0xFFFF :: vals) = strip vals := by
  rcases vals with _ | ⟨a, _ | ⟨b, vals⟩⟩ <;> simp [stripFrom, strip]

/-- Any other value is a triangle, and slides the window (R186, R189). -/
theorem stripFrom_value {f3 : Nat} (h : f3 ≠ 0xFFFF) (f1 f2 : Nat) (reverse : Bool) (vals : List Nat) :
    stripFrom f1 f2 reverse (f3 :: vals) =
      ((if reverse then (f1, f2, f3) else (f1, f3, f2)) :: (stripFrom f2 f3 (!reverse) vals).1,
        (stripFrom f2 f3 (!reverse) vals).2) := by
  rw [stripFrom.eq_def]
  exact if_neg h

theorem strip_of_length_lt {vals : List Nat} (h : vals.length < 2) : strip vals = ([], true) := by
  match vals, h with
  | [], _ => rfl
  | [_], _ => rfl

section
variable {s t : State} {q : SidSeq} {nt : Nat}

/-- The end of a stream (R193). -/
theorem stripEnds_sidEnd (s : State) (nt : Nat) : StripEnds s (s.sidEnd nt) nt ([], false) := by
  refine ⟨?_, nofun, fun _ _ => rfl⟩
  have hstatus : stripStatus s.status false false = s.status ||| 0x01#32 := by simp [stripStatus]
  simp only [someBelow, List.any_nil, hstatus]
  rfl

/-- A short prime (R190). -/
theorem stripEnds_sidPrime {cur : Nat} (h : s.idxCount.toNat - cur < 2) :
    StripEnds s (s.sidPrime cur nt) nt ([], true) := by
  rw [State.sidPrime_short h]
  refine ⟨?_, nofun, fun _ _ => rfl⟩
  have hstatus : stripStatus s.status false true = s.status ||| 0x41#32 := by
    simp only [stripStatus, BitVec.or_assoc]
    rfl
  simp only [someBelow, List.any_nil, hstatus]
  rfl

/-- An emission before the rest of a strip puts its triangle before the others. -/
theorem StripEnds.of_sidEmit {f3 : Half} {out : List (Nat × Nat × Nat) × Bool}
    (h : StripEnds (s.sidEmit config q f3) t (q.nt + 1) out) :
    StripEnds s t q.nt (vertexNumbers (windTriangle config q.reverse q.f1 q.f2 f3) :: out.1, out.2) := by
  rw [State.sidEmit_eq, triBelowBase_eq_someBelow, status_setIf_idxneg] at h
  obtain ⟨hframe, hwritten, hkept⟩ := h
  dsimp only at hframe hwritten hkept
  refine ⟨?_, fun j hj => ?_, fun k hk => ?_⟩
  · rw [stripStatus_idxneg, Nat.add_assoc, Nat.add_comm 1] at hframe
    simpa only [someBelow, List.any_cons, List.any_nil, Bool.or_false, List.length_cons] using hframe
  · cases j with
    | zero => exact (holdsTriangle_writeTri ..).congr fun k hk => hkept k (.inl (by omega))
    | succ j => exact Nat.add_right_comm q.nt 1 j ▸ hwritten j (Nat.lt_of_succ_lt_succ hj)
  · rw [List.length_cons] at hk
    rw [hkept k (by omega), Memory.read_writeTri_ne _ _ (by omega)]

/-- A value that is not the sentinel is read before the rest of the stream. -/
theorem StripDecodes.of_sidEmit (hcur : q.cur < s.idxCount.toNat) (hv : s.streamValue q.cur ≠ sentinel)
    (h : StripDecodes (s.sidEmit config q (s.streamValue q.cur)) t (q.cur + 1) (q.nt + 1)
      (stripFrom q.f2.toNat (s.streamValue q.cur).toNat (!q.reverse))) :
    StripDecodes s t q.cur q.nt (stripFrom q.f1.toNat q.f2.toNat q.reverse) := by
  obtain ⟨vals, hlength, hvals, hends⟩ := h
  rw [State.sidEmit_idxCount] at hlength
  rw [State.sidEmit_src] at hvals
  refine ⟨s.streamValue q.cur :: vals, ?_, hvals.cons (s.holdsValue_streamValue q.cur), ?_⟩
  · rw [List.length_cons, hlength]
    omega
  · rw [List.map_cons, stripFrom_value ((sentinel_iff _).not.mp hv), ← vertexNumbers_windTriangle]
    exact hends.of_sidEmit

/-- A sentinel is read before a stream of its own. -/
theorem StripDecodes.of_sentinel (hcur : q.cur < s.idxCount.toNat) (hv : s.streamValue q.cur = sentinel)
    (h : StripDecodes s t (q.cur + 1) q.nt strip) :
    StripDecodes s t q.cur q.nt (stripFrom q.f1.toNat q.f2.toNat q.reverse) := by
  obtain ⟨vals, hlength, hvals, hends⟩ := h
  refine ⟨sentinel :: vals, ?_, hvals.cons (hv ▸ s.holdsValue_streamValue q.cur), ?_⟩
  · rw [List.length_cons, hlength]
    omega
  · rwa [List.map_cons, (sentinel_iff _).mp rfl, stripFrom_sentinel]

/-- A short prime reads none of the values that are left. -/
theorem stripDecodes_sidPrime_short {cur : Nat} (h : s.idxCount.toNat - cur < 2) :
    StripDecodes s (s.sidPrime cur nt) cur nt strip := by
  obtain ⟨vals, hlength, hvals⟩ := s.exists_holdsStream cur (s.idxCount.toNat - cur)
  refine ⟨vals, hlength, hvals, ?_⟩
  rw [strip_of_length_lt (by rwa [List.length_map, hlength])]
  exact stripEnds_sidPrime h

/-- Two values are taken into the window before what comes after it. -/
theorem StripDecodes.of_sidPrime {cur : Nat} (h : cur + 2 ≤ s.idxCount.toNat)
    (hafter : StripDecodes (s.sidPrime cur nt) t (cur + 2) nt
      (stripFrom (s.streamValue cur).toNat (s.streamValue (cur + 1)).toNat true)) :
    StripDecodes s t cur nt strip := by
  rw [State.sidPrime_window h] at hafter
  obtain ⟨vals, hlength, hvals, hframe, hwritten, hkept⟩ := hafter
  refine ⟨s.streamValue cur :: s.streamValue (cur + 1) :: vals, ?_,
    (hvals.cons (s.holdsValue_streamValue _)).cons (s.holdsValue_streamValue _), hframe, hwritten, hkept⟩
  simp only [List.length_cons, hlength]
  omega

end

/-- Wherever SID stands, `k` passes decode the rest of the stream, if they are more than the values left. -/
def PassesDecode (k : Nat) : Prop :=
  ∀ (s : State) (q : SidSeq), s.seq = .sid q → q.cur ≤ s.idxCount.toNat → s.idxCount.toNat < q.cur + k →
    StripDecodes s (s.sidElements config k) q.cur q.nt (stripFrom q.f1.toNat q.f2.toNat q.reverse)

/-- Passes that decode what comes after a window decode a stream after its priming. -/
theorem PassesDecode.sidPrime {k : Nat} (hk : PassesDecode k) {s : State} {cur : Nat}
    (h : s.idxCount.toNat < cur + 2 + k) (nt : Nat) :
    StripDecodes s ((s.sidPrime cur nt).sidElements config k) cur nt strip := by
  rcases Nat.lt_or_ge (s.idxCount.toNat - cur) 2 with hshort | hleft
  · rw [State.sidElements_idle]
    · exact stripDecodes_sidPrime_short hshort
    · rw [State.sidPrime_short hshort]
  · have hwindow : cur + 2 ≤ s.idxCount.toNat := by omega
    have hprime := State.sidPrime_window hwindow nt
    have hcount : (s.sidPrime cur nt).idxCount = s.idxCount := by rw [hprime]
    exact .of_sidPrime hwindow (hk _ _ (congrArg State.seq hprime) (hcount ▸ hwindow) (hcount ▸ h))

/-- The passes decode the stream: each reads a value, a sentinel with its prime, or finds the end (R191, R194). -/
theorem passesDecode (k : Nat) : PassesDecode k := by
  induction k with
  | zero => exact fun s q _ hcur h => absurd h (Nat.not_lt.mpr hcur)
  | succ k ih =>
    intro s q hs hcur h
    rw [State.sidElements]
    obtain ⟨hread, hv, heq⟩ | ⟨hread, hv, heq⟩ | ⟨hend, heq⟩ := State.sidElement_cases config hs <;> rw [heq]
    · exact .of_sentinel hread hv (ih.sidPrime (by omega) q.nt)
    · refine .of_sidEmit hread hv (ih _ _ (State.sidEmit_seq ..) ?_ ?_) <;> rw [State.sidEmit_idxCount]
      · exact hread
      · rwa [Nat.add_right_comm q.cur 1 k]
    · rw [State.sidElements_idle config k rfl]
      exact ⟨[], (Nat.sub_eq_zero_of_le hend).symm, nofun, stripEnds_sidEnd s q.nt⟩

/-- A `DECSTRIP` that passes its check decodes its stream. -/
theorem exec_decstrip_decodes {s : State} (h : 2 * s.idxCount.toNat ≤ s.srcLen.toNat) :
    ∃ t, exec .decstrip s = .next t ∧ StripDecodes (stripStarted s) t 0 0 strip :=
  ⟨_, exec_decstrip h, (passesDecode _).sidPrime (by simp [stripStarted]) 0⟩

theorem stripStatus_clearDone (status : Word) (below short : Bool) :
    stripStatus (status &&& ~~~0x01#32) below short = stripStatus status below short := by
  rw [stripStatus, clear_or_self, stripStatus]

/-- Settles O34: the passes after the first priming decode the stream. -/
theorem decstripEmitsTheStripTriangles : Obligations.DecstripEmitsTheStripTriangles := by
  intro s hlen
  obtain ⟨t, ht, vals, hlength, hvals, hframe, hwritten, hkept⟩ := exec_decstrip_decodes hlen
  have hstatus : stripStatus (stripStarted s).status = stripStatus s.status :=
    funext₂ (stripStatus_clearDone s.status)
  rw [hstatus] at hframe
  simp only [Memory.HoldsStream, Nat.zero_add] at hvals hframe hwritten hkept
  exact ⟨vals, t, hlength, hvals, ht, hframe, hwritten, fun k hk => hkept k (.inr hk)⟩

/-! ### How many triangles there are -/

/-- A window emits at most one triangle for each value after it (R191). -/
theorem length_stripFrom_le (f1 f2 : Nat) (reverse : Bool) (vals : List Nat) :
    (stripFrom f1 f2 reverse vals).1.length ≤ vals.length := by
  fun_induction stripFrom f1 f2 reverse vals with
  | case1 => exact le_rfl
  | case2 f1 f2 reverse a b vals ih => exact ih.trans (by simp only [List.length_cons]; omega)
  | case3 => exact Nat.zero_le _
  | case4 f1 f2 reverse f3 vals hv more ih => exact Nat.succ_le_succ ih

theorem length_strip_le (vals : List Nat) : (strip vals).1.length ≤ vals.length - 2 := by
  match vals with
  | [] => exact le_rfl
  | [_] => exact Nat.zero_le _
  | f1 :: f2 :: vals => exact length_stripFrom_le f1 f2 true vals

/-- Settles O35: the triangles of the stream, or none where the stream lies beyond `SRC_LEN`. -/
theorem decstripLeavesLaterEntries : Obligations.DecstripLeavesLaterEntries := by
  intro s
  rcases Nat.lt_or_ge s.srcLen.toNat (2 * s.idxCount.toNat) with hlen | hlen
  · exact ⟨_, decstripBeyondSrcLenIsTruncated s hlen, Nat.zero_le _, nofun, fun _ _ => rfl⟩
  · obtain ⟨vals, t, hlength, -, ht, hframe, hwritten, hkept⟩ := decstripEmitsTheStripTriangles s hlen
    have hle := length_strip_le (vals.map BitVec.toNat)
    rw [List.length_map, hlength] at hle
    have hcount : t.triCount.toNat = (strip (vals.map BitVec.toNat)).1.length := by
      rw [hframe]
      exact (BitVec.toNat_ofNat _ 32).trans (Nat.mod_eq_of_lt (by omega))
    refine ⟨t, ht, hcount ▸ hle, fun j hj l => ?_, fun k hk => hkept k (hcount ▸ hk)⟩
    obtain ⟨ha, hb, hc⟩ := hwritten j (hcount ▸ hj)
    refine Option.ne_none_iff_exists'.mpr ?_
    cases l with
    | a => exact ⟨_, ha⟩
    | b => exact ⟨_, hb⟩
    | c => exact ⟨_, hc⟩

end
end Sys2Proof.Machine
end

section
namespace Sys2Proof.Machine

/-! ## The control commands and the values that are no command -/

section
open Reference

/-- Settles O10: the word decodes, and the state is returned, by computation. -/
theorem nopChangesNothing : Obligations.NopChangesNothing := ⟨rfl, fun _ => rfl⟩

/-- Settles O11: an instruction that is not `CLR` keeps every flag but `DONE`. -/
theorem clrClearsStatusAndErrcodeOnly : Obligations.ClrClearsStatusAndErrcodeOnly := by
  refine ⟨rfl, fun _ => rfl, fun i s t f hf ht hset hlost => ?_⟩
  by_contra hi
  have hkept : t.hasFlag f = true := (exec_gainsOnly hi ht f hf).1 hset
  exact Bool.false_ne_true (hlost.symm.trans hkept)

/-- A value that decodes to a command has zeros above one of the five codes (R81). -/
theorem fields_of_decodeCommand_eq_ok {c : Word} {i : Instr} (h : decodeCommand c = .ok i) :
    field c 8 24 = 0 ∧ field c 0 8 ∈ [0x00, 0x01, 0x02, 0x03, 0x0F] := by
  unfold decodeCommand at h
  split_ifs at h <;> subst c <;> decide

/-- A value outside the five codes, or with a bit above them, is rejected (R82). -/
theorem decodeCommand_rejects {c : Word}
    (hc : field c 8 24 ≠ 0 ∨ field c 0 8 ∉ [0x00, 0x01, 0x02, 0x03, 0x0F]) : ∃ r, decodeCommand c = .error r := by
  cases h : decodeCommand c with
  | error r => exact ⟨r, rfl⟩
  | ok i =>
    obtain ⟨hhigh, hlow⟩ := fields_of_decodeCommand_eq_ok h
    exact absurd hc (not_or.mpr ⟨not_not_intro hhigh, not_not_intro hlow⟩)

theorem illegalCommand_eq_faulted (s : State) : illegalCommand s = faulted s 6#32 := rfl

/-- The step that takes a write to `CMD` of a rejected value reports it (R212). -/
theorem step_of_rejected_command {s : State} {c : Word} {rest : List Transaction} {r : DecodeReject}
    (hs : s.seq = .idle) (hp : s.pending = .regWrite .w32 0x00#32 c :: rest) (hr : decodeCommand c = .error r) :
    step s = .next (illegalCommand { s with pending := rest }) := by
  rw [step_of_pending hs hp]
  change (writeCommand c { s with pending := rest }).outcome = _
  simp only [writeCommand, hr, Work.outcome]

/-- Settles O12: on either ground the decoder rejects the value, and the step reports it. -/
theorem illegalCommandIsReported : Obligations.IllegalCommandIsReported := by
  intro s c rest hs hp hc
  obtain ⟨r, hr⟩ := decodeCommand_rejects hc
  rw [step_of_rejected_command hs hp hr, illegalCommand_eq_faulted]
  rfl

end
end Sys2Proof.Machine
end

section
namespace Sys2Proof.Machine

/-! ## Faults and a code already held -/

section
open Reference

/-- Settles O55: there is nothing to run and nothing to take (R241). -/
theorem idleEngineKeepsItsState : Obligations.IdleEngineKeepsItsState := by
  intro s hs hp
  rw [step_eq_outcome]
  simp only [nextWork, hs, hp, Work.outcome]

/-- Only `CLR` ends a reported fault (R229). -/
theorem exec_keeps_err {i : Instr} {s t : State} (ht : exec i s = .next t) (hi : i ≠ .clr)
    (herr : s.hasFlag .err = true) : t.hasFlag .err = true :=
  (exec_gainsOnly hi ht .err nofun).1 herr

/-- `DECBLK` has no check that can fail (R135). -/
theorem exec_decblk_code (s : State) :
    ∃ t, exec .decblk s = .next t ∧ t.hasFlag .done = true ∧ t.errcode = s.errcode :=
  ⟨_, rfl, by simp, by rw [State.decodeToCol_eq]; rfl⟩

theorem stripStatus_done (status : Word) (below short : Bool) : (stripStatus status below short).getLsbD 0 = true := by
  simp [stripStatus]

/-- The one check of `DECSTRIP` tells its code and `DONE` (R182, R193). -/
theorem exec_decstrip_code (s : State) : ∃ t, exec .decstrip s = .next t ∧
    (s.srcLen.toNat < 2 * s.idxCount.toNat → t.errcode = 3#32 ∧ t.hasFlag .done = false) ∧
    (2 * s.idxCount.toNat ≤ s.srcLen.toNat → t.errcode = s.errcode ∧ t.hasFlag .done = true) := by
  rcases Nat.lt_or_ge s.srcLen.toNat (2 * s.idxCount.toNat) with hshort | hlen
  · exact ⟨_, decstripBeyondSrcLenIsTruncated s hshort, fun _ => ⟨rfl, hasFlag_done_faulted _ _⟩,
      fun hlen => absurd hshort (Nat.not_lt.mpr hlen)⟩
  · obtain ⟨t, ht, vals, -, -, hends⟩ := exec_decstrip_decodes hlen
    refine ⟨t, ht, fun hshort => absurd hshort (Nat.not_lt.mpr hlen), fun _ => ?_⟩
    rw [hends.frame]
    exact ⟨rfl, stripStatus_done _ _ _⟩

/-- Settles O48: `ERR` is kept by each instruction, and its code is that of its first failing check, if one fails. -/
theorem newerFaultReplacesTheCode : Obligations.NewerFaultReplacesTheCode := by
  intro s herr
  refine ⟨?dectex, ?decstrip, ?decblk, ?illegal⟩
  case dectex =>
    obtain ⟨t, ht, hshort, hheader⟩ := dectexReportsTheFirstFailingCheck s
    have hknown h := (hheader h).2
    have hgood h htype := (hknown h htype).2
    refine ⟨t, ht, exec_keeps_err ht nofun herr, hshort, fun h => (hheader h).1, fun h htype => (hknown h htype).1,
      fun h htype hsize => (hgood h htype hsize).1, fun ⟨h, htype, hsize, hcomplete⟩ => ?_⟩
    obtain ⟨hcode, -, hdone⟩ := (hgood h htype hsize).2 hcomplete
    exact ⟨hcode, hdone⟩
  case decstrip =>
    obtain ⟨t, ht, hcode⟩ := exec_decstrip_code s
    exact ⟨t, ht, exec_keeps_err ht nofun herr, hcode⟩
  case decblk =>
    obtain ⟨t, ht, hcode⟩ := exec_decblk_code s
    exact ⟨t, ht, exec_keeps_err ht nofun herr, hcode⟩
  case illegal =>
    intro c rest hs hp hc
    obtain ⟨r, hr⟩ := decodeCommand_rejects hc
    exact ⟨_, step_of_rejected_command hs hp hr, by simp [illegalCommand], rfl, hasFlag_done_faulted _ 6#32⟩

end
end Sys2Proof.Machine
end

section
namespace Sys2Proof.Machine

/-! ## How a decode command ends -/

section
open Reference

/-- The end of a decode command without fault (R169, R193). -/
def EndsWithoutFault (s t : State) : Prop :=
  t.hasFlag .done = true ∧ t.hasFlag .err = s.hasFlag .err ∧ t.errcode = s.errcode

/-- The end in a fault whose code is one of those that are raised (R221, R226). -/
def EndsInFault (t : State) : Prop :=
  t.hasFlag .done = false ∧ t.hasFlag .err = true ∧ t.errcode ∈ [1#32, 3#32, 5#32, 6#32]

theorem endsInFault_faulted (s : State) {code : Word} (h : code ∈ [1#32, 3#32, 5#32, 6#32]) :
    EndsInFault (faulted s code) :=
  ⟨hasFlag_done_faulted s code, by simp [State.hasFlag, faulted, StatusFlag.bit], h⟩

theorem State.hasFlag_decodeToCol (s : State) (k : BlockInfo) (f : StatusFlag) :
    (s.decodeToCol k).hasFlag f = (s.hasFlag f || (k.oor && decide (StatusFlag.diffoor = f))) :=
  State.hasFlag_setFlagIf _ k.oor .diffoor f

theorem stripStatus_err (status : Word) (below short : Bool) :
    (stripStatus status below short).getLsbD 1 = status.getLsbD 1 := by
  cases below <;> cases short <;> simp [stripStatus]

theorem exec_decblk_ends (s : State) : ∃ t, exec .decblk s = .next t ∧ t.seq = s.seq ∧ EndsWithoutFault s t := by
  obtain ⟨t, ht, hdone, hcode⟩ := exec_decblk_code s
  refine ⟨t, ht, ?_, hdone, ?_, hcode⟩ <;> cases ht
  · simp [State.decodeToCol]
  · simp [State.hasFlag_decodeToCol]

/-- A `DECTEX` faults by the first check that fails, or passes them all (R153). -/
theorem exec_dectex_ends (s : State) :
    ∃ t, exec .dectex s = .next t ∧ t.seq = .idle ∧ (EndsWithoutFault s t ∨ EndsInFault t) := by
  rcases Nat.lt_or_ge s.srcLen.toNat 16 with hshort | hheader
  · exact ⟨_, exec_dectex_shortHeader hshort, rfl, .inr (endsInFault_faulted s (code := 3#32) (by decide))⟩
  by_cases htype : TypeKnown s
  case neg => exact ⟨_, exec_dectex_unknownType hheader htype, rfl, .inr (endsInFault_faulted _ (by decide))⟩
  by_cases hsize : SizeGood s
  case neg => exact ⟨_, exec_dectex_badSize hheader htype hsize, rfl, .inr (endsInFault_faulted _ (by decide))⟩
  by_cases hlen : Complete s
  case neg =>
    exact ⟨_, exec_dectex_shortPayload hheader htype hsize hlen, rfl,
      .inr (endsInFault_faulted (latched s) (code := 3#32) (by decide))⟩
  obtain ⟨t, ht, -, hchecks⟩ := dectexReportsTheFirstFailingCheck s
  obtain ⟨hcode, herr, hdone⟩ := (((hchecks hheader).2 htype).2 hsize).2 hlen
  refine ⟨t, ht, ?_, .inl ⟨hdone, herr, hcode⟩⟩
  cases (exec_dectex_image ⟨hheader, htype, hsize, hlen⟩).symm.trans ht
  rfl

/-- A `DECSTRIP` faults by its one check (R182), or decodes its stream and ends with `DONE` (R193). -/
theorem exec_decstrip_ends (s : State) :
    ∃ t, exec .decstrip s = .next t ∧ t.seq = .idle ∧ (EndsWithoutFault s t ∨ EndsInFault t) := by
  rcases Nat.lt_or_ge s.srcLen.toNat (2 * s.idxCount.toNat) with hshort | hlen
  · exact ⟨_, decstripBeyondSrcLenIsTruncated s hshort, rfl, .inr (endsInFault_faulted _ (by decide))⟩
  · obtain ⟨vals, t, -, -, ht, hframe, -⟩ := decstripEmitsTheStripTriangles s hlen
    refine ⟨t, ht, ?_, .inl ?_⟩ <;> rw [hframe]
    · rfl
    · exact ⟨stripStatus_done .., stripStatus_err .., rfl⟩

/-- The commands that decode (R80). -/
def decodeCommands : List Instr := [.decblk, .dectex, .decstrip]

/-- A decode command ends with no command running, and faults only if it is not `DECBLK` (R50, R263). -/
theorem exec_decodeCommand_ends {i : Instr} {s : State} (hi : i ∈ decodeCommands) (hs : s.seq = .idle) :
    ∃ t, exec i s = .next t ∧ t.seq = .idle ∧ (EndsWithoutFault s t ∨ i ≠ .decblk ∧ EndsInFault t) := by
  cases i with
  | decblk =>
    obtain ⟨t, ht, hseq, hends⟩ := exec_decblk_ends s
    exact ⟨t, ht, hseq.trans hs, .inl hends⟩
  | dectex =>
    obtain ⟨t, ht, hseq, hends⟩ := exec_dectex_ends s
    exact ⟨t, ht, hseq, hends.imp_right fun h => ⟨nofun, h⟩⟩
  | decstrip =>
    obtain ⟨t, ht, hseq, hends⟩ := exec_decstrip_ends s
    exact ⟨t, ht, hseq, hends.imp_right fun h => ⟨nofun, h⟩⟩
  | nop | clr | infoInd | infoDiff | idxRestart => simp [decodeCommands] at hi

end
end Sys2Proof.Machine
end

section
namespace Sys2Proof.Machine

/-! ## Transactions of the interface always complete -/

/-- What a value that decodes to an instruction is (R81). -/
theorem decodeCommand_eq_ok {v : Word} {i : Instr} (h : decodeCommand v = .ok i) :
    v = 0x00#32 ∧ i = .nop ∨ v = 0x0F#32 ∧ i = .clr ∨
      v ∈ [0x01#32, 0x02#32, 0x03#32] ∧ i ∈ decodeCommands ∧ (v = 0x01#32 → i = .decblk) := by
  unfold decodeCommand at h
  split_ifs at h <;> cases h <;> simp_all [decodeCommands]

/-- A write to `CMD` of any value gives a next state with no command running; the command itself takes no transaction
(R50, R263). -/
theorem writeCommand_completes {s : State} (v : Word) (hs : s.seq = .idle) :
    ∃ t, (writeCommand v s).outcome = .next t ∧ t.seq = .idle ∧ t.pending = s.pending := by
  unfold writeCommand
  cases hv : decodeCommand v with
  | error r => exact ⟨illegalCommand s, rfl, hs, rfl⟩
  | ok i =>
    obtain ⟨-, rfl⟩ | ⟨-, rfl⟩ | ⟨-, hi, -⟩ := decodeCommand_eq_ok hv
    · exact ⟨s, rfl, hs, rfl⟩
    · exact ⟨s.clearStatus, rfl, hs, rfl⟩
    · obtain ⟨t, ht, hidle, -⟩ := exec_decodeCommand_ends hi hs
      exact ⟨t, ht, hidle, (exec_writesOnly ht).pending⟩

/-- A write at a legal offset is one to `CMD`, to another register, or to none (R22, R23). -/
theorem transact_regWrite_completes {s : State} {off : Word} (v : Word) (hs : s.seq = .idle)
    (hlegal : legalRegOffset off.toNat = true) :
    ∃ t, (transact (.regWrite .w32 off v) s).outcome = .next t ∧ t.seq = .idle ∧ t.pending = s.pending := by
  cases hr : Reg.ofOffset off.toNat with
  | none => exact ⟨s, congrArg Work.outcome (transact_regWrite_unmapped s v hlegal hr), hs, rfl⟩
  | some r =>
    by_cases hcmd : r = .cmd
    · have hwrite : transact (.regWrite .w32 off v) s = writeCommand v s := by
        simp [transact, hlegal, hr, hcmd]
      rw [hwrite]
      exact writeCommand_completes v hs
    · obtain ⟨-, -, -, hseq, -, hpending, -⟩ := s.writeReg_frame r v
      exact ⟨s.writeReg r v, congrArg Work.outcome (transact_regWrite s v (Reg.offset_of_ofOffset hr) hcmd),
        hseq.trans hs, hpending⟩

/-- Only a transaction outside the interface can stop the model (R23, R43). -/
theorem transact_completes {s : State} {x : Transaction} (hs : s.seq = .idle) (hx : x.inInterface = true) :
    ∃ t, (transact x s).outcome = .next t ∧ t.seq = .idle ∧ t.pending = s.pending := by
  cases x with
  | regWrite width off v =>
    obtain ⟨rfl, hlegal⟩ : width = .w32 ∧ legalRegOffset off.toNat = true := by
      simpa [Transaction.inInterface] using hx
    exact transact_regWrite_completes v hs hlegal
  | regRead width off =>
    obtain ⟨rfl, hlegal⟩ : width = .w32 ∧ legalRegOffset off.toNat = true := by
      simpa [Transaction.inInterface] using hx
    exact ⟨_, congrArg Work.outcome (transact_regRead s hlegal), hs, rfl⟩
  | srcWrite off bs => exact ⟨_, congrArg Work.outcome (if_pos (of_decide_eq_true hx)), hs, rfl⟩
  | srcRead off n => exact ⟨_, congrArg Work.outcome (if_pos (of_decide_eq_true hx)), hs, rfl⟩
  | pixWrite | pixRead | triWrite | triRead | triWriteWord | triReadWord => exact ⟨_, rfl, hs, rfl⟩
  | reset => exact ⟨_, rfl, rfl, rfl⟩

/-- Settles O42: the engine is idle, or the host's oldest transaction is made and completes. -/
theorem interfaceTransactionsAlwaysComplete : Obligations.InterfaceTransactionsAlwaysComplete := by
  intro s hs hin
  cases hp : s.pending with
  | nil => exact ⟨s, idleEngineKeepsItsState s hs hp, hs, hp⟩
  | cons x rest =>
    obtain ⟨t, ht, hidle, hpending⟩ := transact_completes (s := { s with pending := rest }) hs
      (hin x (hp ▸ List.mem_cons_self))
    exact ⟨t, (step_of_pending hs hp).trans ht, hidle, hpending⟩

end Sys2Proof.Machine
end

section
namespace Sys2Proof.Machine

/-! ## The ways a write to `CMD` ends, the sequencers' start, and the platform's reset -/

/-- A value that is rejected is none of the five commands (R82). -/
theorem not_mem_of_decodeCommand_error {v : Word} {r : DecodeReject} (h : decodeCommand v = .error r) :
    v ∉ [0x00#32, 0x01#32, 0x02#32, 0x03#32, 0x0F#32] := by
  unfold decodeCommand at h
  split_ifs at h
  simp [*]

/-- Settles O43: the decoder tells `NOP`, `CLR`, a decode command, which ends in one of its two ways, and a value
that is illegal. -/
theorem everyCommandWriteEndsOneOfThreeWays : Obligations.EveryCommandWriteEndsOneOfThreeWays := by
  intro s v rest hs hp
  cases hv : decodeCommand v with
  | error r =>
    have hnone := not_mem_of_decodeCommand_error hv
    simp only [List.mem_cons, List.not_mem_nil, or_false, not_or] at hnone
    obtain ⟨hnop, hdecblk, -, -, hclr⟩ := hnone
    refine ⟨_, step_of_rejected_command hs hp hv, hs, rfl, (absurd · hnop), (absurd · hclr), fun _ _ =>
      .inr ⟨hdecblk, ?_⟩⟩
    rw [illegalCommand_eq_faulted]
    exact endsInFault_faulted _ (by decide)
  | ok i =>
    rw [commandWriteRunsTheCommand s v rest i hs hp hv]
    obtain ⟨rfl, rfl⟩ | ⟨rfl, rfl⟩ | ⟨hcode, hi, hdecblk⟩ := decodeCommand_eq_ok hv
    · exact ⟨_, rfl, hs, rfl, fun _ => rfl, nofun, (absurd rfl ·)⟩
    · exact ⟨_, rfl, hs, rfl, nofun, fun _ => rfl, fun _ h => absurd rfl h⟩
    · obtain ⟨t, ht, hidle, hends⟩ := exec_decodeCommand_ends (s := { s with pending := rest }) hi hs
      refine ⟨t, ht, hidle, (exec_writesOnly ht).pending, fun hnop => ?_, fun hclr => ?_, fun _ _ =>
        hends.imp (fun h => ⟨hcode, h⟩) fun ⟨hne, h⟩ => ⟨fun hone => hne (hdecblk hone), h⟩⟩
      · exact absurd (hnop ▸ hcode) (by decide)
      · exact absurd (hclr ▸ hcode) (by decide)

theorem dectexStart_withSeq (s : State) (x : Sequencer) : dectexStart { s with seq := x } = dectexStart s := rfl

theorem decstripStart_withSeq (s : State) (x : Sequencer) : decstripStart { s with seq := x } = decstripStart s := rfl

/-- Settles O44: both commands go on from their start, which sets the sequencer anew, and else look at the registers
only. -/
theorem sequencersStartFromScratch : Obligations.SequencersStartFromScratch := by
  refine fun s x => ⟨?_, ?_⟩
  · simp only [exec, execDectex, dectexWith, dectexStart_withSeq]
  · simp only [exec, execDecstrip, decstripWith, decstripStart_withSeq]

/-- Settles O56: the transaction's effect is the reset state with the model's own parts kept (log 13). -/
theorem platformResetGivesTheResetState : Obligations.PlatformResetGivesTheResetState := fun s rest hs hp =>
  ⟨State.platformReset { s with pending := rest }, step_of_pending hs hp, rfl, rfl, rfl, rfl⟩

end Sys2Proof.Machine
end
